-- ==== Sys2Proof/Word.lean ====
section
/-! DEFINITION. The word types of the block: every port, register and cell is one byte wide, 16-bit
quantities are pairs of bytes, and the two internal counters have 17 bits (00_scope R8). -/

namespace Sys2Proof

/-- One byte: ports, registers and buffer cells (R8). -/
abbrev Byte := BitVec 8

/-- A 16-bit quantity: LEN, PTR, TMO, SETTLE, ELAPSED, RXLEN, PCAP (R8). -/
abbrev Half := BitVec 16

/-- The 17-bit counters TXIDX and RXCNT (R8, R33, R37). -/
abbrev Wide := BitVec 17

/-- A register address (R16: `bus_addr` has 5 bits). -/
abbrev Addr := BitVec 5

end Sys2Proof
end

