-- ==== Sys2Proof/Config.lean ====
section
/-! DEFINITION. What an implementation of the block fixes (the parameters of 00_scope R6) and the free
values: constants without a body, so that no proof can learn a value of one. -/

namespace Sys2Proof.Config

/-- The parameters of 00_scope R6 that a rule reads. "A model takes each one as an argument": they stand
in the state, so a claim about every state is a claim about every block (log 4). -/
structure Params where
  /-- CAP: maximum frame capacity in bytes, the 7 framing bytes included. -/
  cap : Nat
  /-- PL_COUNT_FIRST: whether the discriminator byte increments the decoder's byte counter (R93). -/
  plCountFirst : Bool
  /-- TMO_RESET: reset value of TMO, in ticks. -/
  tmoReset : Half
  /-- SETTLE_RESET: reset value of SETTLE, in ticks. -/
  settleReset : Half
  deriving DecidableEq, Repr

/-- The legal values of R6: 8 ≤ CAP ≤ 65542. The 16-bit reset values are legal by their type. -/
abbrev Params.Legal (p : Params) : Prop := 8 ≤ p.cap ∧ p.cap ≤ 65542

/-- The defaults of R6. -/
def Params.default : Params :=
  { cap := 32, plCountFirst := true, tmoReset := 5000#16, settleReset := 100#16 }

/-- FREE VALUE. The byte of BUF cell `index` after the `epoch`-th reset while nothing has written it
(R39, R144, 93 U2: a draw per cell, fixed until written; log 5). -/
opaque freeBuf (epoch index : Nat) : Byte

/-- FREE VALUE. `tick` at an edge the state's input list does not reach (93 U4; log 2). -/
opaque freeTick (edge : Nat) : Bool

/-- FREE VALUE. `tx_ready` at an edge the state's input list does not reach (93 U4; log 2). -/
opaque freeTxReady (edge : Nat) : Bool

/-- FREE VALUE. `rx_valid` at an edge the state's input list does not reach (93 U4; log 2). -/
opaque freeRxValid (edge : Nat) : Bool

/-- FREE VALUE. `rx_data` at an edge the state's input list does not reach (93 U4; log 2). -/
opaque freeRxData (edge : Nat) : Byte

/-- TIME_UNIT (R6, 92 D3, 93 U5): the length of one tick period, in a unit the platform chooses. OPEN;
no rule of the block reads it, and the model has no wall clock (log 15). -/
opaque timeUnit : Nat

end Sys2Proof.Config
end

