-- ==== Sys2Proof/Syntax.lean ====
section
/-! DEFINITION. The instructions: one constructor per row of spec/opcode_table.json, in the table's order.
The table has four formats: command codes (CMD, R64), bus transactions (BUS, R69), discriminators of a
received frame (ACK_DISC, R95) and host-side payloads (PAYLOAD_ID, R106 to R116). Only the operand bits
of a row are arguments, so a masked row of reserved codes holds exactly its free low bits. -/

namespace Sys2Proof

/-- Where a word of the table stands, which the word's own bits do not say (INDEX "The opcode table"). -/
inductive Format where
  /-- a byte written to CMD while the block is idle (R64) -/
  | cmd
  /-- a bus transaction (R69) -/
  | bus
  /-- the first payload byte of a received frame (R63, R95) -/
  | ackDisc
  /-- the leading bytes of a payload the bus host builds (R117) -/
  | payloadId
  deriving DecidableEq, Repr

/-- The instructions. -/
inductive Instr where
  -- CMD
  /-- 0x00 (R46): no effect. -/
  | nop
  /-- 0x01 (R74): encode and transmit BUF[0..LEN-1]. -/
  | send
  /-- 0x02 (R83): receive one acknowledgment, with timeout. -/
  | await
  /-- 0x03 (R118): SEND, settle, AWAIT. -/
  | issue
  /-- 0x04 + k (R65, R130). -/
  | reserved0407 (k : BitVec 2)
  /-- 0x08 + k (R65, R130). -/
  | reserved080F (k : BitVec 3)
  /-- 0x10 + k (R65, R130). -/
  | reserved101F (k : BitVec 4)
  /-- 0x20 + k (R65, R130). -/
  | reserved203F (k : BitVec 5)
  /-- 0x40 + k (R65, R130). -/
  | reserved407F (k : BitVec 6)
  /-- 0x80 + k (R65, R130). -/
  | reserved80FF (k : BitVec 7)
  -- BUS: a read and a write of each register (R19, R42, R44)
  | rdCmd
  | wrCmd (d : Byte)
  | rdStatus
  | wrStatus (d : Byte)
  | rdLenHi
  | wrLenHi (d : Byte)
  | rdLenLo
  | wrLenLo (d : Byte)
  | rdPtrHi
  | wrPtrHi (d : Byte)
  | rdPtrLo
  | wrPtrLo (d : Byte)
  | rdData
  | wrData (d : Byte)
  | rdCksum
  | wrCksum (d : Byte)
  | rdDisc
  | wrDisc (d : Byte)
  | rdState
  | wrState (d : Byte)
  | rdRxlenHi
  | wrRxlenHi (d : Byte)
  | rdRxlenLo
  | wrRxlenLo (d : Byte)
  | rdTmoHi
  | wrTmoHi (d : Byte)
  | rdTmoLo
  | wrTmoLo (d : Byte)
  | rdSettleHi
  | wrSettleHi (d : Byte)
  | rdSettleLo
  | wrSettleLo (d : Byte)
  | rdElapsedHi
  | wrElapsedHi (d : Byte)
  | rdElapsedLo
  | wrElapsedLo (d : Byte)
  | rdPcapHi
  | wrPcapHi (d : Byte)
  | rdPcapLo
  | wrPcapLo (d : Byte)
  /-- Read of the reserved address 0x14 + a (R66). -/
  | rdRsv1417 (a : BitVec 2)
  /-- Write of d to the reserved address 0x14 + a (R66). -/
  | wrRsv1417 (a : BitVec 2) (d : Byte)
  /-- Read of the reserved address 0x18 + a (R66). -/
  | rdRsv181F (a : BitVec 3)
  /-- Write of d to the reserved address 0x18 + a (R66). -/
  | wrRsv181F (a : BitVec 3) (d : Byte)
  -- ACK_DISC: the discriminator at a frame's end (R95)
  /-- 0x83. -/
  | ack
  /-- 0x84. -/
  | nack
  /-- Any other value (the row matches only when ACK and NACK do not, see WellFormed). -/
  | unrecognized (d : Byte)
  -- PAYLOAD_ID: the bus host's commands, fields in the order of their payload (R102 to R116)
  /-- R106. -/
  | setConstellation (bitmask attr : Byte)
  /-- R107. -/
  | configureSbas (enable ranging rangingURA correction trackingChannels subsystemMask attr : Byte)
  /-- R108. -/
  | configureQzss (enable channels attr : Byte)
  /-- R109; lat, lon and alt are i16 bit patterns (two's complement, R102). -/
  | systemRestart (mode : Byte) (year : Half) (month day hour minute second : Byte) (lat lon alt : Half)
  /-- R110. -/
  | factoryDefault
  /-- R111. -/
  | powerMode (mode attr : Byte)
  /-- R112. -/
  | positionRate (rate attr : Byte)
  /-- R113. -/
  | positionPinningParams (pinSpeed pinCount unpinSpeed unpinCount unpinDistance : Half) (attr : Byte)
  /-- R114. -/
  | positionPinning (mode attr : Byte)
  /-- R115. -/
  | dopMask (mode : Byte) (pdop hdop gdop : Half) (attr : Byte)
  /-- R116. -/
  | nmeaTalkerId (id attr : Byte)
  deriving DecidableEq, Repr

/-- The format of an instruction's row. -/
def Instr.format : Instr → Format
  | .nop | .send | .await | .issue | .reserved0407 _ | .reserved080F _ | .reserved101F _
  | .reserved203F _ | .reserved407F _ | .reserved80FF _ => .cmd
  | .ack | .nack | .unrecognized _ => .ackDisc
  | .setConstellation .. | .configureSbas .. | .configureQzss .. | .systemRestart .. | .factoryDefault
  | .powerMode .. | .positionRate .. | .positionPinningParams .. | .positionPinning .. | .dopMask ..
  | .nmeaTalkerId .. => .payloadId
  | .rdCmd | .wrCmd _
  | .rdStatus | .wrStatus _
  | .rdLenHi | .wrLenHi _
  | .rdLenLo | .wrLenLo _
  | .rdPtrHi | .wrPtrHi _
  | .rdPtrLo | .wrPtrLo _
  | .rdData | .wrData _
  | .rdCksum | .wrCksum _
  | .rdDisc | .wrDisc _
  | .rdState | .wrState _
  | .rdRxlenHi | .wrRxlenHi _
  | .rdRxlenLo | .wrRxlenLo _
  | .rdTmoHi | .wrTmoHi _
  | .rdTmoLo | .wrTmoLo _
  | .rdSettleHi | .wrSettleHi _
  | .rdSettleLo | .wrSettleLo _
  | .rdElapsedHi | .wrElapsedHi _
  | .rdElapsedLo | .wrElapsedLo _
  | .rdPcapHi | .wrPcapHi _
  | .rdPcapLo | .wrPcapLo _
  | .rdRsv1417 _ | .wrRsv1417 _ _ | .rdRsv181F _ | .wrRsv181F _ _ => .bus

end Sys2Proof
end

