-- ==== Sys2Proof/WellFormed.lean ====
section
/-! DEFINITION. Which terms of Instr stand for words of the table. The operand types already hold every
operand to its bits; what is left is the one row that excludes values: UNRECOGNIZED, which the table
matches "only when neither ACK nor NACK matches". A field of a host-side payload that is out of its
documented range is well formed: the instruction runs and ends in ValidationError (R103). -/

namespace Sys2Proof

/-- An UNRECOGNIZED discriminator is neither 0x83 (ACK) nor 0x84 (NACK) (R95). -/
abbrev unrecognizedOk (d : Byte) : Prop := d ≠ 0x83#8 ∧ d ≠ 0x84#8

/-- Well-formedness of an instruction. -/
def Instr.wellFormed : Instr → Bool
  | .unrecognized d => decide (unrecognizedOk d)
  | _ => true

end Sys2Proof
end

