-- ==== Sys2Proof/Decode.lean ====
section
/-! DEFINITION. The encodings of the block, both ways: decoding is total and rejects by name; the encoder
gives the word of a well-formed instruction, from the same tables of the spec (30_encoding R64, R69;
42_ack_receiver R95; 43_command_payloads R102 to R116). Below them the words as spec/opcode_table.json
numbers them. -/

namespace Sys2Proof

/-- A word of the table at the place it stands in, which tells its format. -/
inductive Code where
  /-- an 8-bit command code (R64) -/
  | cmd (c : Byte)
  /-- a 14-bit bus transaction word (R69) -/
  | bus (w : BitVec 14)
  /-- a discriminator (R95) -/
  | disc (d : Byte)
  /-- a payload, whole, in wire order (R102) -/
  | payload (p : List Byte)
  deriving DecidableEq, Repr

/-- The format a word's place gives it. -/
def Code.format : Code → Format
  | .cmd _ => .cmd
  | .bus _ => .bus
  | .disc _ => .ackDisc
  | .payload _ => .payloadId

/-- Why a word is no instruction. -/
inductive DecodeError where
  /-- a bus word for a read whose data bits are not 0 (R69: W[7:0] is 0 for a read) -/
  | readWithData
  /-- a payload whose identifier bytes are in no row of the catalogue for its length (R106 to R117) -/
  | unknownPayload
  /-- a payload of a length no row of the catalogue has -/
  | noPayloadOfThisLength
  /-- a Set constellation payload whose reserved byte is not 0x00 (R106) -/
  | reservedByteNotZero
  deriving DecidableEq, Repr

/-! ### Bytes of a 16-bit value (R8, R51: the high byte first) -/

/-- v[15:8]. -/
def hiByte (v : Half) : Byte := v.extractLsb' 8 8

/-- v[7:0]. -/
def loByte (v : Half) : Byte := v.extractLsb' 0 8

/-- {h, l}. -/
def ofBytes (h l : Byte) : Half := h ++ l

/-! ### Bus words (R69) -/

/-- W[13] = we, W[12:8] = addr, W[7:0] = data. -/
def busWord (we : Bool) (a : Addr) (d : Byte) : BitVec 14 := BitVec.ofBool we ++ a ++ d

def busWe (w : BitVec 14) : Bool := w.getLsbD 13
def busAddr (w : BitVec 14) : Addr := w.extractLsb' 8 5
def busData (w : BitVec 14) : Byte := w.extractLsb' 0 8

/-- The read row of an address (R19, R66). -/
def decodeRead (a : Addr) : Instr :=
  match a.toNat with
  | 0 => .rdCmd
  | 1 => .rdStatus
  | 2 => .rdLenHi
  | 3 => .rdLenLo
  | 4 => .rdPtrHi
  | 5 => .rdPtrLo
  | 6 => .rdData
  | 7 => .rdCksum
  | 8 => .rdDisc
  | 9 => .rdState
  | 10 => .rdRxlenHi
  | 11 => .rdRxlenLo
  | 12 => .rdTmoHi
  | 13 => .rdTmoLo
  | 14 => .rdSettleHi
  | 15 => .rdSettleLo
  | 16 => .rdElapsedHi
  | 17 => .rdElapsedLo
  | 18 => .rdPcapHi
  | 19 => .rdPcapLo
  | n => if n < 0x18 then .rdRsv1417 (a.extractLsb' 0 2) else .rdRsv181F (a.extractLsb' 0 3)

/-- The write row of an address (R19, R66). -/
def decodeWrite (a : Addr) (d : Byte) : Instr :=
  match a.toNat with
  | 0 => .wrCmd d
  | 1 => .wrStatus d
  | 2 => .wrLenHi d
  | 3 => .wrLenLo d
  | 4 => .wrPtrHi d
  | 5 => .wrPtrLo d
  | 6 => .wrData d
  | 7 => .wrCksum d
  | 8 => .wrDisc d
  | 9 => .wrState d
  | 10 => .wrRxlenHi d
  | 11 => .wrRxlenLo d
  | 12 => .wrTmoHi d
  | 13 => .wrTmoLo d
  | 14 => .wrSettleHi d
  | 15 => .wrSettleLo d
  | 16 => .wrElapsedHi d
  | 17 => .wrElapsedLo d
  | 18 => .wrPcapHi d
  | 19 => .wrPcapLo d
  | n => if n < 0x18 then .wrRsv1417 (a.extractLsb' 0 2) d else .wrRsv181F (a.extractLsb' 0 3) d

/-- The BUS format. -/
def decodeBus (w : BitVec 14) : Except DecodeError Instr :=
  if busWe w then .ok (decodeWrite (busAddr w) (busData w))
  else if busData w = 0#8 then .ok (decodeRead (busAddr w))
  else .error .readWithData

/-! ### Command codes (R64, R65) -/

/-- The CMD format: every byte is a row. -/
def decodeCmd (c : Byte) : Instr :=
  if c = 0x00#8 then .nop
  else if c = 0x01#8 then .send
  else if c = 0x02#8 then .await
  else if c = 0x03#8 then .issue
  else if c.toNat < 0x08 then .reserved0407 (c.extractLsb' 0 2)
  else if c.toNat < 0x10 then .reserved080F (c.extractLsb' 0 3)
  else if c.toNat < 0x20 then .reserved101F (c.extractLsb' 0 4)
  else if c.toNat < 0x40 then .reserved203F (c.extractLsb' 0 5)
  else if c.toNat < 0x80 then .reserved407F (c.extractLsb' 0 6)
  else .reserved80FF (c.extractLsb' 0 7)

/-! ### Discriminators (R95) -/

/-- The ACK_DISC format: every byte is a row, UNRECOGNIZED last. -/
def decodeDisc (d : Byte) : Instr :=
  if d = 0x83#8 then .ack else if d = 0x84#8 then .nack else .unrecognized d

/-! ### Payloads (R102 to R116) -/

/-- R106: LEN = 5. -/
def bytesSetConstellation (bitmask attr : Byte) : List Byte := [0x64#8, 0x19#8, 0x00#8, bitmask, attr]

/-- R107: LEN = 9. -/
def bytesConfigureSbas (enable ranging rangingURA correction trackingChannels subsystemMask attr : Byte) : List Byte :=
  [0x62#8, 0x01#8, enable, ranging, rangingURA, correction, trackingChannels, subsystemMask, attr]

/-- R108: LEN = 5. -/
def bytesConfigureQzss (enable channels attr : Byte) : List Byte := [0x62#8, 0x03#8, enable, channels, attr]

/-- R109: LEN = 15. -/
def bytesSystemRestart (mode : Byte) (year : Half) (month day hour minute second : Byte) (lat lon alt : Half) : List Byte :=
  [0x01#8, mode, hiByte year, loByte year, month, day, hour, minute, second,
   hiByte lat, loByte lat, hiByte lon, loByte lon, hiByte alt, loByte alt]

/-- R110: LEN = 2. -/
def bytesFactoryDefault : List Byte := [0x04#8, 0x01#8]

/-- R111: LEN = 3. -/
def bytesPowerMode (mode attr : Byte) : List Byte := [0x0C#8, mode, attr]

/-- R112: LEN = 3. -/
def bytesPositionRate (rate attr : Byte) : List Byte := [0x0E#8, rate, attr]

/-- R113: LEN = 12. -/
def bytesPositionPinningParams (pinSpeed pinCount unpinSpeed unpinCount unpinDistance : Half) (attr : Byte) : List Byte :=
  [0x3B#8, hiByte pinSpeed, loByte pinSpeed, hiByte pinCount, loByte pinCount, hiByte unpinSpeed, loByte unpinSpeed,
   hiByte unpinCount, loByte unpinCount, hiByte unpinDistance, loByte unpinDistance, attr]

/-- R114: LEN = 3. -/
def bytesPositionPinning (mode attr : Byte) : List Byte := [0x39#8, mode, attr]

/-- R115: LEN = 9. -/
def bytesDopMask (mode : Byte) (pdop hdop gdop : Half) (attr : Byte) : List Byte :=
  [0x2A#8, mode, hiByte pdop, loByte pdop, hiByte hdop, loByte hdop, hiByte gdop, loByte gdop, attr]

/-- R116: LEN = 3. -/
def bytesNmeaTalkerId (id attr : Byte) : List Byte := [0x4B#8, id, attr]

/-- The PAYLOAD_ID format: a whole payload of the catalogue. -/
def decodePayload : List Byte → Except DecodeError Instr
  | [a, b] => if a = 0x04#8 ∧ b = 0x01#8 then .ok .factoryDefault else .error .unknownPayload
  | [a, b, c] =>
    if a = 0x0C#8 then .ok (.powerMode b c)
    else if a = 0x0E#8 then .ok (.positionRate b c)
    else if a = 0x39#8 then .ok (.positionPinning b c)
    else if a = 0x4B#8 then .ok (.nmeaTalkerId b c)
    else .error .unknownPayload
  | [a, b, c, d, e] =>
    if a = 0x64#8 ∧ b = 0x19#8 then
      if c = 0x00#8 then .ok (.setConstellation d e) else .error .reservedByteNotZero
    else if a = 0x62#8 ∧ b = 0x03#8 then .ok (.configureQzss c d e)
    else .error .unknownPayload
  | [a, b, c, d, e, f, g, h, i] =>
    if a = 0x62#8 ∧ b = 0x01#8 then .ok (.configureSbas c d e f g h i)
    else if a = 0x2A#8 then .ok (.dopMask b (ofBytes c d) (ofBytes e f) (ofBytes g h) i)
    else .error .unknownPayload
  | [a, b, c, d, e, f, g, h, i, j, k, l] =>
    if a = 0x3B#8 then
      .ok (.positionPinningParams (ofBytes b c) (ofBytes d e) (ofBytes f g) (ofBytes h i) (ofBytes j k) l)
    else .error .unknownPayload
  | [a, b, c, d, e, f, g, h, i, j, k, l, m, n, o] =>
    if a = 0x01#8 then
      .ok (.systemRestart b (ofBytes c d) e f g h i (ofBytes j k) (ofBytes l m) (ofBytes n o))
    else .error .unknownPayload
  | _ => .error .noPayloadOfThisLength

/-- Decoding, by the place the word stands in. -/
def decode : Code → Except DecodeError Instr
  | .cmd c => .ok (decodeCmd c)
  | .bus w => decodeBus w
  | .disc d => .ok (decodeDisc d)
  | .payload p => decodePayload p

/-! ### The encoder -/

/-- The word of a well-formed instruction. -/
def encode : Instr → Code
  | .nop => .cmd 0x00#8
  | .send => .cmd 0x01#8
  | .await => .cmd 0x02#8
  | .issue => .cmd 0x03#8
  | .reserved0407 k => .cmd (0b000001#6 ++ k)
  | .reserved080F k => .cmd (0b00001#5 ++ k)
  | .reserved101F k => .cmd (0b0001#4 ++ k)
  | .reserved203F k => .cmd (0b001#3 ++ k)
  | .reserved407F k => .cmd (0b01#2 ++ k)
  | .reserved80FF k => .cmd (0b1#1 ++ k)
  | .rdCmd => .bus (busWord false 0x00#5 0#8)
  | .wrCmd d => .bus (busWord true 0x00#5 d)
  | .rdStatus => .bus (busWord false 0x01#5 0#8)
  | .wrStatus d => .bus (busWord true 0x01#5 d)
  | .rdLenHi => .bus (busWord false 0x02#5 0#8)
  | .wrLenHi d => .bus (busWord true 0x02#5 d)
  | .rdLenLo => .bus (busWord false 0x03#5 0#8)
  | .wrLenLo d => .bus (busWord true 0x03#5 d)
  | .rdPtrHi => .bus (busWord false 0x04#5 0#8)
  | .wrPtrHi d => .bus (busWord true 0x04#5 d)
  | .rdPtrLo => .bus (busWord false 0x05#5 0#8)
  | .wrPtrLo d => .bus (busWord true 0x05#5 d)
  | .rdData => .bus (busWord false 0x06#5 0#8)
  | .wrData d => .bus (busWord true 0x06#5 d)
  | .rdCksum => .bus (busWord false 0x07#5 0#8)
  | .wrCksum d => .bus (busWord true 0x07#5 d)
  | .rdDisc => .bus (busWord false 0x08#5 0#8)
  | .wrDisc d => .bus (busWord true 0x08#5 d)
  | .rdState => .bus (busWord false 0x09#5 0#8)
  | .wrState d => .bus (busWord true 0x09#5 d)
  | .rdRxlenHi => .bus (busWord false 0x0A#5 0#8)
  | .wrRxlenHi d => .bus (busWord true 0x0A#5 d)
  | .rdRxlenLo => .bus (busWord false 0x0B#5 0#8)
  | .wrRxlenLo d => .bus (busWord true 0x0B#5 d)
  | .rdTmoHi => .bus (busWord false 0x0C#5 0#8)
  | .wrTmoHi d => .bus (busWord true 0x0C#5 d)
  | .rdTmoLo => .bus (busWord false 0x0D#5 0#8)
  | .wrTmoLo d => .bus (busWord true 0x0D#5 d)
  | .rdSettleHi => .bus (busWord false 0x0E#5 0#8)
  | .wrSettleHi d => .bus (busWord true 0x0E#5 d)
  | .rdSettleLo => .bus (busWord false 0x0F#5 0#8)
  | .wrSettleLo d => .bus (busWord true 0x0F#5 d)
  | .rdElapsedHi => .bus (busWord false 0x10#5 0#8)
  | .wrElapsedHi d => .bus (busWord true 0x10#5 d)
  | .rdElapsedLo => .bus (busWord false 0x11#5 0#8)
  | .wrElapsedLo d => .bus (busWord true 0x11#5 d)
  | .rdPcapHi => .bus (busWord false 0x12#5 0#8)
  | .wrPcapHi d => .bus (busWord true 0x12#5 d)
  | .rdPcapLo => .bus (busWord false 0x13#5 0#8)
  | .wrPcapLo d => .bus (busWord true 0x13#5 d)
  | .rdRsv1417 a => .bus (busWord false (0b101#3 ++ a) 0#8)
  | .wrRsv1417 a d => .bus (busWord true (0b101#3 ++ a) d)
  | .rdRsv181F a => .bus (busWord false (0b11#2 ++ a) 0#8)
  | .wrRsv181F a d => .bus (busWord true (0b11#2 ++ a) d)
  | .ack => .disc 0x83#8
  | .nack => .disc 0x84#8
  | .unrecognized d => .disc d
  | .setConstellation m t => .payload (bytesSetConstellation m t)
  | .configureSbas e r u c n m t => .payload (bytesConfigureSbas e r u c n m t)
  | .configureQzss e c t => .payload (bytesConfigureQzss e c t)
  | .systemRestart m y mo d h mi s la lo al => .payload (bytesSystemRestart m y mo d h mi s la lo al)
  | .factoryDefault => .payload bytesFactoryDefault
  | .powerMode m t => .payload (bytesPowerMode m t)
  | .positionRate r t => .payload (bytesPositionRate r t)
  | .positionPinningParams ps pc us uc ud t => .payload (bytesPositionPinningParams ps pc us uc ud t)
  | .positionPinning m t => .payload (bytesPositionPinning m t)
  | .dopMask m p h g t => .payload (bytesDopMask m p h g t)
  | .nmeaTalkerId i t => .payload (bytesNmeaTalkerId i t)

/-! ### The words as the opcode table numbers them (log 6)

The table gives a word without its place, so one byte can be several rows (0x0C is a reserved command code
and the identifier of Power mode). `tableCode` takes the row that fixes the most bits, and of two rows that
fix the same bits the first of the table. The machine itself never needs it: the place tells the format. -/

/-- The length of the catalogue's payload with a one-byte identifier (R109, R111 to R116). -/
def oneByteIdLength (a : Nat) : Option Nat :=
  match a with
  | 0x01 => some 15
  | 0x0C => some 3
  | 0x0E => some 3
  | 0x3B => some 12
  | 0x39 => some 3
  | 0x2A => some 9
  | 0x4B => some 3
  | _ => none

/-- The length of the catalogue's payload with a two-byte identifier, first payload byte high
(R106, R107, R108, R110). -/
def twoByteIdLength (w : Nat) : Option Nat :=
  match w with
  | 0x6419 => some 5
  | 0x6201 => some 9
  | 0x6203 => some 5
  | 0x0401 => some 2
  | _ => none

/-- The leading bytes of a payload with zeros for the operand bytes the table gives no bits. -/
def padPayload (lead : List Byte) (n : Nat) : List Byte := lead ++ List.replicate (n - lead.length) 0#8

/-- The place and the whole word of a table word of `nbits` bits. A word of no bits is the row UNRECOGNIZED,
whose mask is 0. -/
def tableCode (nbits w : Nat) : Code :=
  let b0 : Byte := BitVec.ofNat 8 w
  let b1 : Byte := BitVec.ofNat 8 (w / 256)
  if nbits = 0 then .disc b0
  else if nbits ≤ 8 then
    if w % 256 = 0x83 ∨ w % 256 = 0x84 then .disc b0
    else if w % 256 = 0x01 then .cmd b0
    else match oneByteIdLength (w % 256) with
      | some n => .payload (padPayload [b0] n)
      | none => .cmd b0
  else if w < 0x4000 ∧ (0x2000 ≤ w ∨ w % 256 = 0) then .bus (BitVec.ofNat 14 w)
  else match twoByteIdLength w with
    | some n => .payload (padPayload [b1, b0] n)
    | none => match oneByteIdLength (w % 256) with
      | some n => .payload (padPayload [b0, b1] n)
      | none => .bus (BitVec.ofNat 14 w)

/-- The instruction the decoder reads from a table word; none where it refuses. -/
def decodeTableWord (nbits w : Nat) : Option Instr :=
  match decode (tableCode nbits w) with
  | .ok i => some i
  | .error _ => none

end Sys2Proof
end

