-- ==== Sys2Proof/Machine/State.lean ====
section
/-! DEFINITION. The state of the block and of what surrounds it, as plain data; the reasons a step stops; the
state after reset. Every field's rule and reset value stand in INVENTORY.md under "State". -/

namespace Sys2Proof.Machine

/-- PHASE, the sequencer phase (R32); its code is the constructor's place. -/
inductive Phase where
  | idle
  | tx
  | settle
  | rx
  deriving DecidableEq, Repr

/-- RXST, the decoder state (R36). Code 7 is never entered, and this type has no constructor for it. -/
inductive RxState where
  | waitSync1
  | waitSync2
  | lenHigh
  | lenLow
  | payload
  | waitTrailer
  | terminal
  deriving DecidableEq, Repr

/-- STATUS.CAUSE (R127). Codes 6 and 7 are never produced, and this type has no constructor for them. -/
inductive Cause where
  | success
  | nack
  | unrecognized
  | timeout
  | overflow
  | badCmd
  deriving DecidableEq, Repr

/-- A register-bus transaction as the ports carry it while `bus_sel` = 1 (R16). -/
structure BusPorts where
  we : Bool
  addr : Addr
  wdata : Byte
  deriving DecidableEq, Repr

/-- One item of the bus host's script (R70, and the commands of 43_command_payloads). -/
inductive HostOp where
  /-- `WR` or `RD`: one transaction, in one cycle -/
  | bus (p : BusPorts)
  /-- one cycle of `IDLE <k>`: `bus_sel` = 0 -/
  | idle
  /-- `WAITDONE`: `RD STATUS` each cycle until bit 1 (DONE) reads 1 -/
  | waitDone
  /-- a command of the catalogue, as the payload it stands for (R102 to R116) -/
  | command (payload : List Byte)
  deriving DecidableEq, Repr

/-- The inputs of one edge other than the bus (R16). `rx` is `rx_data` while `rx_valid` = 1. -/
structure EnvInput where
  rst : Bool
  tick : Bool
  txReady : Bool
  rx : Option Byte
  deriving DecidableEq, Repr

/-- The written cells of BUF, in strictly rising order of index. An unlisted cell has no value (log 5). -/
abbrev Memory := List Host.Cell

/-- The state. -/
structure State where
  /-- the block's parameters (R6); no step writes them -/
  params : Config.Params
  -- registers (R20 to R30)
  lastcmd : Byte
  done : Bool
  cause : Cause
  cmdlost : Bool
  len : Half
  ptr : Half
  cksum : Byte
  disc : Byte
  rxlen : Half
  tmo : Half
  settle : Half
  elapsed : Half
  -- internal state (R32 to R39)
  phase : Phase
  txidx : Wide
  txck : Byte
  setcnt : Half
  rxst : RxState
  rxcnt : Wide
  discseen : Bool
  buf : Memory
  -- the environment (R14, R16)
  /-- what the bus host still does, one item an edge (log 3) -/
  script : List HostOp
  /-- the inputs of the coming edges; past its end they are free (log 2) -/
  env : List EnvInput
  /-- the bus host's last command ended in ValidationError (R103; log 8) -/
  validationError : Bool
  -- the model's own
  /-- edges seen: the counter of the free environment inputs (log 2) -/
  edge : Nat
  /-- reset edges seen: the counter of the free BUF contents (log 5) -/
  epoch : Nat
  /-- bytes transferred on the TX port (R15), oldest first -/
  txLog : List Byte
  /-- bytes consumed from the RX port (R15), oldest first -/
  rxLog : List Byte
  /-- bytes the bus host read (R15), oldest first -/
  rdLog : List Byte
  deriving DecidableEq, Repr

/-- Why the machine stops. The block has no fatal state (R131): each of these marks a state that no run from
reset reaches (log 10). All are safe: the model stops where the rules give no step. -/
inductive Fault where
  /-- Raised by the encoder's step in PHASE = TX when TXIDX > LEN + 6: "Indices above 6 + n never occur" (R76). Safe. -/
  | txIndexBeyondFrame
  /-- Raised by the encoder's step when a payload index reaches PCAP: BUF has no such cell (R48). Safe. -/
  | bufIndexBeyondPcap
  /-- Raised by the decoder's step when it takes a byte with RXST = Terminal: Terminal ends the receive (R94, R95). Safe. -/
  | receiveAfterTerminal
  deriving DecidableEq, Repr

/-- Why a step has no meaning. -/
inductive Refusal where
  /-- Raised by an arm of exec for an instruction without a meaning. No arm does so. Safe. -/
  | notModelled (mnemonic : String)
  /-- Raised by the fetch when the bus host's script asks for a command that is no payload of the catalogue (log 9). Safe. -/
  | undecodable (e : DecodeError)
  deriving DecidableEq, Repr

/-- The state right after an edge with `rst` = 1 (R47, R143) of a block with parameters p, with nothing yet asked
of it: the values of the fields that are not the block's are DESIGN CHOICE (log 18). -/
def State.resetWith (p : Config.Params) : State :=
  { params := p
    lastcmd := 0x00#8
    done := false
    cause := .success
    cmdlost := false
    len := 0x0000#16
    ptr := 0x0000#16
    cksum := 0x00#8
    disc := 0x00#8
    rxlen := 0x0000#16
    tmo := p.tmoReset
    settle := p.settleReset
    elapsed := 0x0000#16
    phase := .idle
    txidx := 0#17
    txck := 0x00#8
    setcnt := 0#16
    rxst := .waitSync1
    rxcnt := 0#17
    discseen := false
    buf := []
    script := []
    env := []
    validationError := false
    edge := 0
    epoch := 0
    txLog := []
    rxLog := []
    rdLog := [] }

/-- The machine right after reset, with the default parameters of R6. -/
def State.reset : State := State.resetWith Config.Params.default

end Sys2Proof.Machine
end

