-- ==== Sys2Proof/Machine/Ops.lean ====
section
/-! DEFINITION. The named operations over memory and registers that the meanings share: the payload buffer,
the start of each phase, completion (the block's exception, R129) and acknowledgement (its return, R136),
and reset. -/

namespace Sys2Proof.Machine

/-! ### The list of written cells -/

/-- The canonical form: indices strictly rising. An unlisted cell reads as no value, so no entry can equal what
an unlisted cell reads as. -/
abbrev Memory.wf (m : Memory) : Prop := m.Pairwise (fun c c' => c.1 < c'.1)

/-- The byte last written at index a since reset; none if nothing has been. -/
def Memory.read : Memory → Nat → Option Byte
  | [], _ => none
  | (b, v) :: m, a => if a = b then some v else Memory.read m a

/-- Writes v at index a, keeping the canonical form. -/
def Memory.write : Memory → Nat → Byte → Memory
  | [], a, v => [(a, v)]
  | (b, w) :: m, a, v =>
    if a < b then (a, v) :: (b, w) :: m
    else if a = b then (a, v) :: m
    else (b, w) :: Memory.write m a v

/-! ### The payload buffer (R10, R39, R48) -/

/-- PCAP = CAP - 7 (R6, R31). -/
def pcap (s : State) : Nat := s.params.cap - 7

/-- MemRead(BUF, i, 1). A cell nothing has written since reset holds an unspecified byte, the same at every read
until it is written (R144, U2). -/
def bufRead (s : State) (i : Nat) : Byte :=
  match Memory.read s.buf i with
  | some b => b
  | none => Config.freeBuf s.epoch i

/-- MemWrite(BUF, i, 1, v). -/
def bufWrite (i : Nat) (v : Byte) (s : State) : State := { s with buf := Memory.write s.buf i v }

/-- The payload SEND and ISSUE transmit: BUF[0..LEN-1] (R74). -/
def payload (s : State) : List Byte := (List.range s.len.toNat).map (bufRead s)

/-! ### Completion and acknowledgement -/

/-- complete(c), the block's one exception (R129): it writes PHASE, DONE and CAUSE and no other field. -/
def complete (c : Cause) (s : State) : State := { s with phase := .idle, done := true, cause := c }

/-- The return from it (R136): the bus host clears DONE; CAUSE stays. -/
def acknowledge (s : State) : State := { s with done := false }

/-! ### Command acceptance (R45, R46) -/

/-- The part of accept() common to every nonzero code. -/
def accept (c : Byte) (s : State) : State := { s with lastcmd := c, done := false, cause := .success }

/-- A nonzero code written while PHASE ≠ IDLE only sets CMDLOST (R45). -/
def commandLost (s : State) : State := { s with cmdlost := true }

/-- A write of the nonzero code c to CMD, whose operation begins with `start`. -/
def command (c : Byte) (start : State → State) (s : State) : State :=
  if s.phase = .idle then start (accept c s) else commandLost s

/-- A bus write that has its effect only while PHASE = IDLE (R44, R45). -/
def whenIdle (f : State → State) (s : State) : State := if s.phase = .idle then f s else s

/-! ### The start of each phase -/

/-- The overflow condition zext_17(LEN) + 7 > CAP (R72). -/
def overflows (s : State) : Bool := decide (s.len.toNat + 7 > s.params.cap)

/-- encode_start (R75). -/
def encodeStart (s : State) : State :=
  if overflows s then complete .overflow s
  else { s with phase := .tx, txidx := 0#17, txck := 0x00#8 }

/-- settle_start (R119). -/
def settleStart (s : State) : State := { s with phase := .settle, setcnt := 0#16 }

/-- rx_start (R84). -/
def rxStart (s : State) : State :=
  { s with
    phase := .rx
    rxst := .waitSync1
    rxlen := 0x0000#16
    rxcnt := 0#17
    disc := 0x00#8
    discseen := false
    elapsed := 0#16 }

/-! ### Reset -/

/-- What an edge with `rst` = 1 does to the block (R47, R143). BUF becomes unspecified for a model (R144): no cell
is listed, and the free contents are those of a new epoch. The environment's fields and the records stay. -/
def resetBlock (s : State) : State :=
  { s with
    lastcmd := 0x00#8
    done := false
    cause := .success
    cmdlost := false
    len := 0x0000#16
    ptr := 0x0000#16
    cksum := 0x00#8
    disc := 0x00#8
    rxlen := 0x0000#16
    elapsed := 0x0000#16
    tmo := s.params.tmoReset
    settle := s.params.settleReset
    phase := .idle
    txidx := 0#17
    txck := 0x00#8
    setcnt := 0#16
    rxst := .waitSync1
    rxcnt := 0#17
    discseen := false
    buf := []
    epoch := s.epoch + 1 }

/-! ### The records of the observables (R15) -/

/-- The bus host reads b. -/
def recordRead (b : Byte) (s : State) : State := { s with rdLog := s.rdLog ++ [b] }

/-- The TX port transfers b: tx_emit(b) (R10). -/
def recordTx (b : Byte) (s : State) : State := { s with txLog := s.txLog ++ [b] }

/-- The RX port consumes b: rx_take() (R10). -/
def recordRx (b : Byte) (s : State) : State := { s with rxLog := s.rxLog ++ [b] }

end Sys2Proof.Machine
end

