-- ==== Sys2Proof/Machine/Ack.lean ====
section
/-! DEFINITION. The ACK_DISC family: what each discriminator does when its frame ends, at the edge that takes
END2 in WaitTrailer (R94, R95). -/

namespace Sys2Proof.Machine

/-- The decoder reaches Terminal and the receive completes with cause c (R94, R95). -/
def frameEnd (c : Cause) (s : State) : State := complete c { s with rxst := .terminal }

/-- 0x83 (R95): SUCCESS. -/
def execAck (s : State) : Host.Outcome State Fault Refusal := .next (frameEnd .success s)

/-- 0x84 (R95): NACK. -/
def execNack (s : State) : Host.Outcome State Fault Refusal := .next (frameEnd .nack s)

/-- Any other discriminator (R95): UNRECOGNIZED, whatever its value. -/
def execUnrecognized (_d : Byte) (s : State) : Host.Outcome State Fault Refusal :=
  .next (frameEnd .unrecognized s)

end Sys2Proof.Machine
end

