-- ==== Sys2Proof/Machine/Flags.lean ====
section
/-! DEFINITION. The STATUS and STATE bytes and the flags in them (R21, R26, R67, R127, R132). -/

namespace Sys2Proof.Machine

/-- PHASE[1:0] (R32). -/
def Phase.code : Phase → BitVec 2
  | .idle => 0#2
  | .tx => 1#2
  | .settle => 2#2
  | .rx => 3#2

/-- RXST[2:0] (R36). -/
def RxState.code : RxState → BitVec 3
  | .waitSync1 => 0#3
  | .waitSync2 => 1#3
  | .lenHigh => 2#3
  | .lenLow => 3#3
  | .payload => 4#3
  | .waitTrailer => 5#3
  | .terminal => 6#3

/-- CAUSE[2:0] (R127). -/
def Cause.code : Cause → BitVec 3
  | .success => 0#3
  | .nack => 1#3
  | .unrecognized => 2#3
  | .timeout => 3#3
  | .overflow => 4#3
  | .badCmd => 5#3

/-- BUSY: 1 iff PHASE ≠ IDLE. -/
def busy (s : State) : Bool := decide (s.phase ≠ .idle)

/-- RESULT: DONE = 1 and CAUSE = 0. -/
def result (s : State) : Bool := s.done && decide (s.cause = .success)

/-- The byte STATUS reads as: {0, CMDLOST, CAUSE[2:0], RESULT, DONE, BUSY} (R21, R42). -/
def statusByte (s : State) : Byte :=
  0#1 ++ BitVec.ofBool s.cmdlost ++ s.cause.code ++ BitVec.ofBool (result s) ++ BitVec.ofBool s.done
    ++ BitVec.ofBool (busy s)

/-- The byte STATE reads as: {000, PHASE[1:0], RXST[2:0]} (R26). -/
def stateByte (s : State) : Byte := 0#3 ++ s.phase.code ++ s.rxst.code

/-- A write of d to STATUS, in any phase: bit 1 clears DONE, bit 6 clears CMDLOST, the other bits are ignored
(R21, R44, R67). -/
def writeStatus (d : Byte) (s : State) : State :=
  let s := if d.getLsbD 1 then acknowledge s else s
  if d.getLsbD 6 then { s with cmdlost := false } else s

end Sys2Proof.Machine
end

