-- ==== Sys2Proof/Machine/Operands.lean ====
section
/-! DEFINITION. The operands as registers: the halves of the 16-bit registers (R51, R68), the DATA port
(R49, R50) and the whole read function of the register space (R42). -/

namespace Sys2Proof.Machine

/-- v with its high byte replaced: a write of d to X_HI. -/
def setHi (v : Half) (d : Byte) : Half := ofBytes d (loByte v)

/-- v with its low byte replaced: a write of d to X_LO. -/
def setLo (v : Half) (d : Byte) : Half := ofBytes (hiByte v) d

/-- PCAP as the 16-bit constant the bus host reads (R31). -/
def pcapHalf (s : State) : Half := BitVec.ofNat 16 (pcap s)

/-- PTR <- (PTR + 1) mod 2^16 (R23). -/
def advancePtr (s : State) : State := { s with ptr := s.ptr + 1#16 }

/-- The byte a read of DATA returns (R42, R50). -/
def dataPortValue (s : State) : Byte :=
  if s.phase = .idle ∧ s.ptr.toNat < pcap s then bufRead s s.ptr.toNat else 0x00#8

/-- dataport_write (R49). -/
def dataPortWrite (d : Byte) (s : State) : State :=
  advancePtr (if s.ptr.toNat < pcap s then bufWrite s.ptr.toNat d s else s)

/-- bus_read_effect at address 0x06 (R50). -/
def dataPortReadEffect (s : State) : State := whenIdle advancePtr s

/-- read(S, a) of R42. -/
def readReg (s : State) (a : Addr) : Byte :=
  match a.toNat with
  | 0x00 => s.lastcmd
  | 0x01 => statusByte s
  | 0x02 => hiByte s.len
  | 0x03 => loByte s.len
  | 0x04 => hiByte s.ptr
  | 0x05 => loByte s.ptr
  | 0x06 => dataPortValue s
  | 0x07 => s.cksum
  | 0x08 => s.disc
  | 0x09 => stateByte s
  | 0x0A => hiByte s.rxlen
  | 0x0B => loByte s.rxlen
  | 0x0C => hiByte s.tmo
  | 0x0D => loByte s.tmo
  | 0x0E => hiByte s.settle
  | 0x0F => loByte s.settle
  | 0x10 => hiByte s.elapsed
  | 0x11 => loByte s.elapsed
  | 0x12 => hiByte (pcapHalf s)
  | 0x13 => loByte (pcapHalf s)
  | _ => 0x00#8

end Sys2Proof.Machine
end

