-- ==== Sys2Proof/Machine/BusRead.lean ====
section
/-! DEFINITION. The read rows of the BUS family: the bus host reads one register at one edge (R42). The byte is
that of the pre-edge state; only a read of DATA has a side effect, and only while idle (R50, R54). -/

namespace Sys2Proof.Machine

/-- R20, R42. -/
def execRdCmd (s : State) : Host.Outcome State Fault Refusal := .next (recordRead s.lastcmd s)

/-- R21, R42. -/
def execRdStatus (s : State) : Host.Outcome State Fault Refusal := .next (recordRead (statusByte s) s)

/-- R22, R42. -/
def execRdLenHi (s : State) : Host.Outcome State Fault Refusal := .next (recordRead (hiByte s.len) s)

/-- R22, R42. -/
def execRdLenLo (s : State) : Host.Outcome State Fault Refusal := .next (recordRead (loByte s.len) s)

/-- R23, R42. -/
def execRdPtrHi (s : State) : Host.Outcome State Fault Refusal := .next (recordRead (hiByte s.ptr) s)

/-- R23, R42. -/
def execRdPtrLo (s : State) : Host.Outcome State Fault Refusal := .next (recordRead (loByte s.ptr) s)

/-- R42, R50: the value is read before PTR advances. -/
def execRdData (s : State) : Host.Outcome State Fault Refusal :=
  .next (dataPortReadEffect (recordRead (dataPortValue s) s))

/-- R24, R42. -/
def execRdCksum (s : State) : Host.Outcome State Fault Refusal := .next (recordRead s.cksum s)

/-- R25, R42. -/
def execRdDisc (s : State) : Host.Outcome State Fault Refusal := .next (recordRead s.disc s)

/-- R26, R42. -/
def execRdState (s : State) : Host.Outcome State Fault Refusal := .next (recordRead (stateByte s) s)

/-- R27, R42. -/
def execRdRxlenHi (s : State) : Host.Outcome State Fault Refusal := .next (recordRead (hiByte s.rxlen) s)

/-- R27, R42. -/
def execRdRxlenLo (s : State) : Host.Outcome State Fault Refusal := .next (recordRead (loByte s.rxlen) s)

/-- R28, R42. -/
def execRdTmoHi (s : State) : Host.Outcome State Fault Refusal := .next (recordRead (hiByte s.tmo) s)

/-- R28, R42. -/
def execRdTmoLo (s : State) : Host.Outcome State Fault Refusal := .next (recordRead (loByte s.tmo) s)

/-- R29, R42. -/
def execRdSettleHi (s : State) : Host.Outcome State Fault Refusal := .next (recordRead (hiByte s.settle) s)

/-- R29, R42. -/
def execRdSettleLo (s : State) : Host.Outcome State Fault Refusal := .next (recordRead (loByte s.settle) s)

/-- R30, R42. -/
def execRdElapsedHi (s : State) : Host.Outcome State Fault Refusal := .next (recordRead (hiByte s.elapsed) s)

/-- R30, R42. -/
def execRdElapsedLo (s : State) : Host.Outcome State Fault Refusal := .next (recordRead (loByte s.elapsed) s)

/-- R31, R42. -/
def execRdPcapHi (s : State) : Host.Outcome State Fault Refusal := .next (recordRead (hiByte (pcapHalf s)) s)

/-- R31, R42. -/
def execRdPcapLo (s : State) : Host.Outcome State Fault Refusal := .next (recordRead (loByte (pcapHalf s)) s)

/-- R66: reads 0x00. -/
def execRdRsv1417 (_a : BitVec 2) (s : State) : Host.Outcome State Fault Refusal := .next (recordRead 0x00#8 s)

/-- R66: reads 0x00. -/
def execRdRsv181F (_a : BitVec 3) (s : State) : Host.Outcome State Fault Refusal := .next (recordRead 0x00#8 s)

end Sys2Proof.Machine
end

