-- ==== Sys2Proof/Machine/Command.lean ====
section
/-! DEFINITION. The CMD family: what a write of each command code to CMD does at its edge, in every phase
(R44, R45, R46, R64). The later edges of an operation are the engine's (Machine/Engine.lean). -/

namespace Sys2Proof.Machine

/-- NOP (R46): no effect at all, and none while busy either (R44). -/
def execNop (s : State) : Host.Outcome State Fault Refusal := .next s

/-- SEND (R74): accepted while idle, then encode_start (R75); lost while busy (R45). -/
def execSend (s : State) : Host.Outcome State Fault Refusal := .next (command 0x01#8 encodeStart s)

/-- AWAIT (R83): accepted while idle, then rx_start (R84); lost while busy (R45). -/
def execAwait (s : State) : Host.Outcome State Fault Refusal := .next (command 0x02#8 rxStart s)

/-- ISSUE (R118): accepted while idle, then encode_start (R75); lost while busy (R45). -/
def execIssue (s : State) : Host.Outcome State Fault Refusal := .next (command 0x03#8 encodeStart s)

/-- A reserved code c (R65, R130): accepted while idle, then complete(BADCMD); lost while busy (R45). -/
def reservedCommand (c : Byte) (s : State) : State := command c (complete .badCmd) s

def execReserved0407 (k : BitVec 2) (s : State) : Host.Outcome State Fault Refusal :=
  .next (reservedCommand (0b000001#6 ++ k) s)

def execReserved080F (k : BitVec 3) (s : State) : Host.Outcome State Fault Refusal :=
  .next (reservedCommand (0b00001#5 ++ k) s)

def execReserved101F (k : BitVec 4) (s : State) : Host.Outcome State Fault Refusal :=
  .next (reservedCommand (0b0001#4 ++ k) s)

def execReserved203F (k : BitVec 5) (s : State) : Host.Outcome State Fault Refusal :=
  .next (reservedCommand (0b001#3 ++ k) s)

def execReserved407F (k : BitVec 6) (s : State) : Host.Outcome State Fault Refusal :=
  .next (reservedCommand (0b01#2 ++ k) s)

def execReserved80FF (k : BitVec 7) (s : State) : Host.Outcome State Fault Refusal :=
  .next (reservedCommand (0b1#1 ++ k) s)

end Sys2Proof.Machine
end

