-- ==== Sys2Proof/Machine/BusWrite.lean ====
section
/-! DEFINITION. The write rows of the BUS family: bus_write of R44, one register a definition. While PHASE ≠ IDLE
every write but one to STATUS is ignored, and a nonzero code to CMD sets CMDLOST (R45). -/

namespace Sys2Proof.Machine

/-- R44, R46: the written byte is a command code, and the write is that command. -/
def execWrCmd (d : Byte) (s : State) : Host.Outcome State Fault Refusal :=
  if d = 0x00#8 then execNop s
  else if d = 0x01#8 then execSend s
  else if d = 0x02#8 then execAwait s
  else if d = 0x03#8 then execIssue s
  else .next (reservedCommand d s)

/-- R21, R44: in any phase. -/
def execWrStatus (d : Byte) (s : State) : Host.Outcome State Fault Refusal := .next (writeStatus d s)

/-- R22, R44. -/
def execWrLenHi (d : Byte) (s : State) : Host.Outcome State Fault Refusal :=
  .next (whenIdle (fun s => { s with len := setHi s.len d }) s)

/-- R22, R44. -/
def execWrLenLo (d : Byte) (s : State) : Host.Outcome State Fault Refusal :=
  .next (whenIdle (fun s => { s with len := setLo s.len d }) s)

/-- R23, R44. -/
def execWrPtrHi (d : Byte) (s : State) : Host.Outcome State Fault Refusal :=
  .next (whenIdle (fun s => { s with ptr := setHi s.ptr d }) s)

/-- R23, R44. -/
def execWrPtrLo (d : Byte) (s : State) : Host.Outcome State Fault Refusal :=
  .next (whenIdle (fun s => { s with ptr := setLo s.ptr d }) s)

/-- R44, R49. -/
def execWrData (d : Byte) (s : State) : Host.Outcome State Fault Refusal := .next (whenIdle (dataPortWrite d) s)

/-- R66: read-only, the write is ignored. -/
def execWrCksum (_d : Byte) (s : State) : Host.Outcome State Fault Refusal := .next s

/-- R66: read-only, the write is ignored. -/
def execWrDisc (_d : Byte) (s : State) : Host.Outcome State Fault Refusal := .next s

/-- R66: read-only, the write is ignored. -/
def execWrState (_d : Byte) (s : State) : Host.Outcome State Fault Refusal := .next s

/-- R66: read-only, the write is ignored. -/
def execWrRxlenHi (_d : Byte) (s : State) : Host.Outcome State Fault Refusal := .next s

/-- R66: read-only, the write is ignored. -/
def execWrRxlenLo (_d : Byte) (s : State) : Host.Outcome State Fault Refusal := .next s

/-- R28, R44. -/
def execWrTmoHi (d : Byte) (s : State) : Host.Outcome State Fault Refusal :=
  .next (whenIdle (fun s => { s with tmo := setHi s.tmo d }) s)

/-- R28, R44. -/
def execWrTmoLo (d : Byte) (s : State) : Host.Outcome State Fault Refusal :=
  .next (whenIdle (fun s => { s with tmo := setLo s.tmo d }) s)

/-- R29, R44. -/
def execWrSettleHi (d : Byte) (s : State) : Host.Outcome State Fault Refusal :=
  .next (whenIdle (fun s => { s with settle := setHi s.settle d }) s)

/-- R29, R44. -/
def execWrSettleLo (d : Byte) (s : State) : Host.Outcome State Fault Refusal :=
  .next (whenIdle (fun s => { s with settle := setLo s.settle d }) s)

/-- R66: read-only, the write is ignored. -/
def execWrElapsedHi (_d : Byte) (s : State) : Host.Outcome State Fault Refusal := .next s

/-- R66: read-only, the write is ignored. -/
def execWrElapsedLo (_d : Byte) (s : State) : Host.Outcome State Fault Refusal := .next s

/-- R66: read-only, the write is ignored. -/
def execWrPcapHi (_d : Byte) (s : State) : Host.Outcome State Fault Refusal := .next s

/-- R66: read-only, the write is ignored. -/
def execWrPcapLo (_d : Byte) (s : State) : Host.Outcome State Fault Refusal := .next s

/-- R66: reserved, the write is ignored. -/
def execWrRsv1417 (_a : BitVec 2) (_d : Byte) (s : State) : Host.Outcome State Fault Refusal := .next s

/-- R66: reserved, the write is ignored. -/
def execWrRsv181F (_a : BitVec 3) (_d : Byte) (s : State) : Host.Outcome State Fault Refusal := .next s

end Sys2Proof.Machine
end

