-- ==== Sys2Proof/Machine/Script.lean ====
section
/-! DEFINITION. Host scripts: the register addresses by name (R19) and the pseudo-instructions of R70 as the
scripts they expand to. -/

namespace Sys2Proof.Machine

/-! ### The addresses a script uses (R19) -/

def addrCmd : Addr := 0x00#5
def addrStatus : Addr := 0x01#5
def addrLenHi : Addr := 0x02#5
def addrLenLo : Addr := 0x03#5
def addrPtrHi : Addr := 0x04#5
def addrPtrLo : Addr := 0x05#5
def addrData : Addr := 0x06#5
def addrTmoHi : Addr := 0x0C#5
def addrTmoLo : Addr := 0x0D#5
def addrSettleHi : Addr := 0x0E#5
def addrSettleLo : Addr := 0x0F#5

/-! ### The script's lines (R70) -/

/-- `WR a, d`. -/
def wr (a : Addr) (d : Byte) : HostOp := .bus { we := true, addr := a, wdata := d }

/-- `RD a`. -/
def rd (a : Addr) : HostOp := .bus { we := false, addr := a, wdata := 0x00#8 }

/-- `IDLE k`. -/
def idleFor (k : Nat) : List HostOp := List.replicate k .idle

/-- `WR16 R, v`, with R's two addresses. -/
def wr16 (hi lo : Addr) (v : Half) : List HostOp := [wr hi (hiByte v), wr lo (loByte v)]

/-- `LOAD p`. -/
def load (p : List Byte) : List HostOp := wr16 addrPtrHi addrPtrLo 0#16 ++ p.map (wr addrData)

/-- `LOAD p`, then `WR16 LEN` with its length. -/
def loadFrame (p : List Byte) : List HostOp :=
  load p ++ wr16 addrLenHi addrLenLo (BitVec.ofNat 16 p.length)

/-- `SENDP p`. -/
def sendp (p : List Byte) : List HostOp := loadFrame p ++ [wr addrCmd 0x01#8]

/-- `ISSUEP p`. -/
def issuep (p : List Byte) : List HostOp := loadFrame p ++ [wr addrCmd 0x03#8]

/-- `CLR`: clears DONE and CMDLOST. -/
def clr : List HostOp := [wr addrStatus 0x42#8]

/-- What the bus host does for one command whose arguments are valid: steps (b) to (f) of R146. Step (g),
clearing DONE, the next command does as well. -/
def issueScript (p : List Byte) : List HostOp := issuep p ++ [.waitDone, rd addrStatus]

end Sys2Proof.Machine
end

