-- ==== Sys2Proof/Machine/Payload.lean ====
section
/-! DEFINITION. The PAYLOAD_ID family: the bus host's commands (43_command_payloads). The bus host checks every
field with a documented range, then builds the payload and issues it over the bus (R103, R146 (a) to (f));
an argument out of range is a ValidationError and nothing reaches the block (R103). The block itself never
reads these bytes (R117). Log 8 says what of this the model fixed. -/

namespace Sys2Proof.Machine

/-- v lies in lo to hi, inclusive at both ends (R103). -/
def inRange {w : Nat} (v : BitVec w) (lo hi : Nat) : Bool := decide (lo ≤ v.toNat ∧ v.toNat ≤ hi)

/-- The bus host's command with payload p: validated, then put at the front of its script (R103, R146). -/
def hostCommand (valid : Bool) (p : List Byte) (s : State) : State :=
  if valid then { s with script := issueScript p ++ s.script, validationError := false }
  else { s with validationError := true }

/-- R106: no field has a range. -/
def execSetConstellation (bitmask attr : Byte) (s : State) : Host.Outcome State Fault Refusal :=
  .next (hostCommand true (bytesSetConstellation bitmask attr) s)

/-- R107: enable 0-1, ranging 0-2, rangingURA 0-15, correction 0-1, trackingChannels 0-3. -/
def execConfigureSbas (enable ranging rangingURA correction trackingChannels subsystemMask attr : Byte) (s : State) :
    Host.Outcome State Fault Refusal :=
  .next (hostCommand
    (inRange enable 0 1 && inRange ranging 0 2 && inRange rangingURA 0 15 && inRange correction 0 1
      && inRange trackingChannels 0 3)
    (bytesConfigureSbas enable ranging rangingURA correction trackingChannels subsystemMask attr) s)

/-- R108: enable 0-1, channels 0-3. -/
def execConfigureQzss (enable channels attr : Byte) (s : State) : Host.Outcome State Fault Refusal :=
  .next (hostCommand (inRange enable 0 1 && inRange channels 0 3) (bytesConfigureQzss enable channels attr) s)

/-- R109: no field has a range. -/
def execSystemRestart (mode : Byte) (year : Half) (month day hour minute second : Byte) (lat lon alt : Half) (s : State) :
    Host.Outcome State Fault Refusal :=
  .next (hostCommand true (bytesSystemRestart mode year month day hour minute second lat lon alt) s)

/-- R110: no field. -/
def execFactoryDefault (s : State) : Host.Outcome State Fault Refusal :=
  .next (hostCommand true bytesFactoryDefault s)

/-- R111: mode 0-1. -/
def execPowerMode (mode attr : Byte) (s : State) : Host.Outcome State Fault Refusal :=
  .next (hostCommand (inRange mode 0 1) (bytesPowerMode mode attr) s)

/-- R112: no field has a range. -/
def execPositionRate (rate attr : Byte) (s : State) : Host.Outcome State Fault Refusal :=
  .next (hostCommand true (bytesPositionRate rate attr) s)

/-- R113: no field has a range. -/
def execPositionPinningParams (pinSpeed pinCount unpinSpeed unpinCount unpinDistance : Half) (attr : Byte) (s : State) :
    Host.Outcome State Fault Refusal :=
  .next (hostCommand true (bytesPositionPinningParams pinSpeed pinCount unpinSpeed unpinCount unpinDistance attr) s)

/-- R114: mode 0-2. -/
def execPositionPinning (mode attr : Byte) (s : State) : Host.Outcome State Fault Refusal :=
  .next (hostCommand (inRange mode 0 2) (bytesPositionPinning mode attr) s)

/-- R115: mode 0-4, pdop, hdop and gdop 5-300. -/
def execDopMask (mode : Byte) (pdop hdop gdop : Half) (attr : Byte) (s : State) : Host.Outcome State Fault Refusal :=
  .next (hostCommand
    (inRange mode 0 4 && inRange pdop 5 300 && inRange hdop 5 300 && inRange gdop 5 300)
    (bytesDopMask mode pdop hdop gdop attr) s)

/-- R116: id 0-2. -/
def execNmeaTalkerId (id attr : Byte) (s : State) : Host.Outcome State Fault Refusal :=
  .next (hostCommand (inRange id 0 2) (bytesNmeaTalkerId id attr) s)

end Sys2Proof.Machine
end

