-- ==== Sys2Proof/Machine/Dispatch.lean ====
section
/-! DEFINITION. One arm per instruction, each one call of its meaning. -/

namespace Sys2Proof.Machine

def exec (i : Instr) (s : State) : Host.Outcome State Fault Refusal :=
  match i with
  | .nop => Sys2Proof.Machine.execNop s
  | .send => Sys2Proof.Machine.execSend s
  | .await => Sys2Proof.Machine.execAwait s
  | .issue => Sys2Proof.Machine.execIssue s
  | .reserved0407 k => Sys2Proof.Machine.execReserved0407 k s
  | .reserved080F k => Sys2Proof.Machine.execReserved080F k s
  | .reserved101F k => Sys2Proof.Machine.execReserved101F k s
  | .reserved203F k => Sys2Proof.Machine.execReserved203F k s
  | .reserved407F k => Sys2Proof.Machine.execReserved407F k s
  | .reserved80FF k => Sys2Proof.Machine.execReserved80FF k s
  | .rdCmd => Sys2Proof.Machine.execRdCmd s
  | .wrCmd d => Sys2Proof.Machine.execWrCmd d s
  | .rdStatus => Sys2Proof.Machine.execRdStatus s
  | .wrStatus d => Sys2Proof.Machine.execWrStatus d s
  | .rdLenHi => Sys2Proof.Machine.execRdLenHi s
  | .wrLenHi d => Sys2Proof.Machine.execWrLenHi d s
  | .rdLenLo => Sys2Proof.Machine.execRdLenLo s
  | .wrLenLo d => Sys2Proof.Machine.execWrLenLo d s
  | .rdPtrHi => Sys2Proof.Machine.execRdPtrHi s
  | .wrPtrHi d => Sys2Proof.Machine.execWrPtrHi d s
  | .rdPtrLo => Sys2Proof.Machine.execRdPtrLo s
  | .wrPtrLo d => Sys2Proof.Machine.execWrPtrLo d s
  | .rdData => Sys2Proof.Machine.execRdData s
  | .wrData d => Sys2Proof.Machine.execWrData d s
  | .rdCksum => Sys2Proof.Machine.execRdCksum s
  | .wrCksum d => Sys2Proof.Machine.execWrCksum d s
  | .rdDisc => Sys2Proof.Machine.execRdDisc s
  | .wrDisc d => Sys2Proof.Machine.execWrDisc d s
  | .rdState => Sys2Proof.Machine.execRdState s
  | .wrState d => Sys2Proof.Machine.execWrState d s
  | .rdRxlenHi => Sys2Proof.Machine.execRdRxlenHi s
  | .wrRxlenHi d => Sys2Proof.Machine.execWrRxlenHi d s
  | .rdRxlenLo => Sys2Proof.Machine.execRdRxlenLo s
  | .wrRxlenLo d => Sys2Proof.Machine.execWrRxlenLo d s
  | .rdTmoHi => Sys2Proof.Machine.execRdTmoHi s
  | .wrTmoHi d => Sys2Proof.Machine.execWrTmoHi d s
  | .rdTmoLo => Sys2Proof.Machine.execRdTmoLo s
  | .wrTmoLo d => Sys2Proof.Machine.execWrTmoLo d s
  | .rdSettleHi => Sys2Proof.Machine.execRdSettleHi s
  | .wrSettleHi d => Sys2Proof.Machine.execWrSettleHi d s
  | .rdSettleLo => Sys2Proof.Machine.execRdSettleLo s
  | .wrSettleLo d => Sys2Proof.Machine.execWrSettleLo d s
  | .rdElapsedHi => Sys2Proof.Machine.execRdElapsedHi s
  | .wrElapsedHi d => Sys2Proof.Machine.execWrElapsedHi d s
  | .rdElapsedLo => Sys2Proof.Machine.execRdElapsedLo s
  | .wrElapsedLo d => Sys2Proof.Machine.execWrElapsedLo d s
  | .rdPcapHi => Sys2Proof.Machine.execRdPcapHi s
  | .wrPcapHi d => Sys2Proof.Machine.execWrPcapHi d s
  | .rdPcapLo => Sys2Proof.Machine.execRdPcapLo s
  | .wrPcapLo d => Sys2Proof.Machine.execWrPcapLo d s
  | .rdRsv1417 a => Sys2Proof.Machine.execRdRsv1417 a s
  | .wrRsv1417 a d => Sys2Proof.Machine.execWrRsv1417 a d s
  | .rdRsv181F a => Sys2Proof.Machine.execRdRsv181F a s
  | .wrRsv181F a d => Sys2Proof.Machine.execWrRsv181F a d s
  | .ack => Sys2Proof.Machine.execAck s
  | .nack => Sys2Proof.Machine.execNack s
  | .unrecognized d => Sys2Proof.Machine.execUnrecognized d s
  | .setConstellation bitmask attr => Sys2Proof.Machine.execSetConstellation bitmask attr s
  | .configureSbas enable ranging rangingURA correction trackingChannels subsystemMask attr => Sys2Proof.Machine.execConfigureSbas enable ranging rangingURA correction trackingChannels subsystemMask attr s
  | .configureQzss enable channels attr => Sys2Proof.Machine.execConfigureQzss enable channels attr s
  | .systemRestart mode year month day hour minute second lat lon alt => Sys2Proof.Machine.execSystemRestart mode year month day hour minute second lat lon alt s
  | .factoryDefault => Sys2Proof.Machine.execFactoryDefault s
  | .powerMode mode attr => Sys2Proof.Machine.execPowerMode mode attr s
  | .positionRate rate attr => Sys2Proof.Machine.execPositionRate rate attr s
  | .positionPinningParams pinSpeed pinCount unpinSpeed unpinCount unpinDistance attr => Sys2Proof.Machine.execPositionPinningParams pinSpeed pinCount unpinSpeed unpinCount unpinDistance attr s
  | .positionPinning mode attr => Sys2Proof.Machine.execPositionPinning mode attr s
  | .dopMask mode pdop hdop gdop attr => Sys2Proof.Machine.execDopMask mode pdop hdop gdop attr s
  | .nmeaTalkerId id attr => Sys2Proof.Machine.execNmeaTalkerId id attr s

end Sys2Proof.Machine
end

