-- ==== Sys2Proof/Machine/Frame.lean ====
section
/-! DEFINITION. The wire frame: the pure functions of the format (R60, R61, R71, R81) and the byte the encoder offers
at each index (R76). -/

namespace Sys2Proof.Machine

/-! ### The constants of the protocol (R7) -/

def sync1 : Byte := 0xA0#8
def sync2 : Byte := 0xA1#8
def end1 : Byte := 0x0D#8
def end2 : Byte := 0x0A#8

/-- The XOR-fold of the payload bytes; 0x00 for none (R61). -/
def xorfold : List Byte → Byte
  | [] => 0x00#8
  | b :: p => b ^^^ xorfold p

/-- encode(P) of R71: the whole frame that carries P. -/
def frameOf (p : List Byte) : List Byte :=
  let n : Half := BitVec.ofNat 16 p.length
  [sync1, sync2, hiByte n, loByte n] ++ p ++ [xorfold p, end1, end2]

/-- parse(F) of R81, a function of the spec and no part of the block: the payload of a frame, or none. -/
def parseFrame (f : List Byte) : Option (List Byte) :=
  match f with
  | a :: b :: h :: l :: rest =>
    let n := (ofBytes h l).toNat
    if a = sync1 ∧ b = sync2 ∧ rest.length = n + 3 ∧ rest.drop n = [xorfold (rest.take n), end1, end2] then
      some (rest.take n)
    else none
  | _ => none

/-- frame_byte(S, i) of R76, with n = LEN. An index above 6 + n, and a BUF index at or above PCAP, never occur in
a run (R76, R78); there the model stops (log 10). -/
def frameByte (s : State) (i : Nat) : Except Fault Byte :=
  let n := s.len.toNat
  if i = 0 then .ok sync1
  else if i = 1 then .ok sync2
  else if i = 2 then .ok (hiByte s.len)
  else if i = 3 then .ok (loByte s.len)
  else if i < 4 + n then
    if i - 4 < pcap s then .ok (bufRead s (i - 4)) else .error .bufIndexBeyondPcap
  else if i = 4 + n then .ok s.txck
  else if i = 5 + n then .ok end1
  else if i = 6 + n then .ok end2
  else .error .txIndexBeyondFrame

end Sys2Proof.Machine
end

