-- ==== Sys2Proof/Machine/Engine.lean ====
section
/-! DEFINITION. The engine part of a clock edge (R43): transmit, settle and receive. As in the spec, S is the
pre-edge state, which every right-hand side reads, and S' the next state so far, which the bus part has already
written. The fields the two parts write are disjoint but for DONE, which the engine writes last (R43, R133). -/

namespace Sys2Proof.Machine

/-! ### Transmit (R77) -/

/-- The transfer of byte b at index TXIDX: the arms of tx_step below `tx_ready == 0`. -/
def txTransfer (S S' : State) (b : Byte) : State :=
  let n := S.len.toNat
  let i := S.txidx.toNat
  let S' := if 4 ≤ i ∧ i < 4 + n then { S' with txck := S.txck ^^^ b } else S'
  let S' := if i = 4 + n then { S' with cksum := b } else S'
  if i = 6 + n then
    if S.lastcmd = 0x01#8 then complete .success S' else settleStart S'
  else { S' with txidx := S.txidx + 1#17 }

/-- tx_step (R77, R80). -/
def txStep (S S' : State) (txReady : Bool) : Host.Outcome State Fault Refusal :=
  if txReady then
    match frameByte S S.txidx.toNat with
    | .ok b => .next (txTransfer S (recordTx b S') b)
    | .error f => .fault f
  else .next S'

/-! ### Settle (R120) -/

/-- settle_step (R120). -/
def settleStep (S S' : State) (tick : Bool) : State :=
  if S.settle.toNat ≤ S.setcnt.toNat then rxStart S'
  else if tick then { S' with setcnt := S.setcnt + 1#16 }
  else S'

/-! ### Receive (R85 to R95) -/

/-- A byte in state Payload (R93). -/
def payloadByte (S S' : State) (b : Byte) : State :=
  let first := !S.discseen
  let cnt : Wide := if first && !S.params.plCountFirst then S.rxcnt else S.rxcnt + 1#17
  let S' := if first then { S' with disc := b, discseen := true } else S'
  let S' := { S' with rxcnt := cnt }
  if S.rxlen.toNat + 1 ≤ cnt.toNat then { S' with rxst := .waitTrailer } else S'

/-- delta: the transition for a consumed byte b, an arm for each decoder state (R89 to R95). At the frame's end the
discriminator is the instruction that runs (R95). -/
def delta (S S' : State) (b : Byte) : Host.Outcome State Fault Refusal :=
  match S.rxst with
  | .waitSync1 => .next (if b = sync1 then { S' with rxst := .waitSync2 } else S')
  | .waitSync2 => .next (if b = sync2 then { S' with rxst := .lenHigh } else { S' with rxst := .waitSync1 })
  | .lenHigh => .next { S' with rxlen := setHi S.rxlen b, rxst := .lenLow }
  | .lenLow => .next { S' with rxlen := setLo S.rxlen b, rxcnt := 0#17, discseen := false, rxst := .payload }
  | .payload => .next (payloadByte S S' b)
  | .waitTrailer => if b = end2 then exec (decodeDisc S.disc) S' else .next S'
  | .terminal => .fault .receiveAfterTerminal

/-- The tick of a receive edge (R86). -/
def countTick (S S' : State) (tick : Bool) : State :=
  if tick then { S' with elapsed := S.elapsed + 1#16 } else S'

/-- rx_step (R85, R87, R88): the deadline test first, then the tick, then at most one byte. -/
def rxStep (S S' : State) (rx : Option Byte) (tick : Bool) : Host.Outcome State Fault Refusal :=
  if S.tmo.toNat ≤ S.elapsed.toNat then .next (complete .timeout S')
  else match rx with
    | none => .next (countTick S S' tick)
    | some b => delta S (recordRx b (countTick S S' tick)) b

/-- The engine part of an edge, by the pre-edge PHASE (R43). -/
def engine (S S' : State) (e : EnvInput) : Host.Outcome State Fault Refusal :=
  match S.phase with
  | .idle => .next S'
  | .tx => txStep S S' e.txReady
  | .settle => .next (settleStep S S' e.tick)
  | .rx => rxStep S S' e.rx e.tick

end Sys2Proof.Machine
end

