-- ==== Sys2Proof/Machine/Fetch.lean ====
section
/-! DEFINITION. What comes in at an edge: the environment's inputs (log 2), the bus host's next item and the
instruction it is (log 3), and the bus part of the edge. Also the edge with `rst` = 1, and how a word of the table is
placed so that the next step runs it (log 7). -/

namespace Sys2Proof.Machine

/-- The inputs of the coming edge: the head of the list, or free values past its end (log 2). -/
def envNow (s : State) : EnvInput :=
  match s.env with
  | e :: _ => e
  | [] =>
    { rst := false
      tick := Config.freeTick s.edge
      txReady := Config.freeTxReady s.edge
      rx := if Config.freeRxValid s.edge then some (Config.freeRxData s.edge) else none }

/-- The transaction on the bus ports in this cycle; none while `bus_sel` = 0 (R16, R70). -/
def busPorts (s : State) : Option BusPorts :=
  match s.script with
  | .bus p :: _ => some p
  | .waitDone :: _ => some { we := false, addr := addrStatus, wdata := 0x00#8 }
  | _ => none

/-- The word of a transaction (R69). `bus_wdata` means nothing on a read, so its bits are 0 there (log 13). -/
def portsWord (p : BusPorts) : BitVec 14 := busWord p.we p.addr (if p.we then p.wdata else 0x00#8)

/-- The word the bus host's next item stands for, if any. -/
def hostCode (s : State) : Option Code :=
  match s.script with
  | .command p :: _ => some (.payload p)
  | _ => (busPorts s).map (fun p => .bus (portsWord p))

/-- The script after this edge. `WAITDONE` stays until the STATUS it reads has DONE = 1 (R70). -/
def scriptNext (s : State) : List HostOp :=
  match s.script with
  | [] => []
  | .waitDone :: t => if s.done then t else .waitDone :: t
  | .bus _ :: t => t
  | .idle :: t => t
  | .command _ :: t => t

/-- The edge's inputs are used up. -/
def nextCycle (s : State) : State :=
  { s with script := scriptNext s, env := s.env.tail, edge := s.edge + 1 }

/-- The bus part of an edge (R43), the bus host's own work included (log 8). -/
def hostPart (s : State) : Host.Outcome State Fault Refusal :=
  match hostCode s with
  | none => .next (nextCycle s)
  | some c =>
    match decode c with
    | .ok i => exec i (nextCycle s)
    | .error e => .refused (.undecodable e)

/-! ### The edge with `rst` = 1 (R143) -/

/-- The script after an edge with `rst` = 1: a transaction presented then is ignored and gone; `WAITDONE` has read
0x00 and goes on; a command waits (log 16). -/
def scriptHeld (s : State) : List HostOp :=
  match s.script with
  | .bus _ :: t => t
  | .idle :: t => t
  | ops => ops

/-- The edge with `rst` = 1: the block is reset, and a read returns 0x00 (R143). -/
def resetEdge (s : State) : State :=
  let s' := resetBlock { s with script := scriptHeld s, env := s.env.tail, edge := s.edge + 1 }
  match busPorts s with
  | some p => if p.we then s' else recordRead 0x00#8 s'
  | none => s'

/-! ### Placing a word (log 7) -/

/-- An edge's inputs with nothing asserted. -/
def quiet : EnvInput := { rst := false, tick := false, txReady := false, rx := none }

/-- s with the word c placed so that the next step runs it: a command code as a write to CMD, a bus word as a
transaction, a payload as a command of the bus host, each at the front of the script; a discriminator as the one of a
frame whose END2 comes at the next edge, with the deadline not reached. -/
def placeCode (c : Code) (s : State) : State :=
  match c with
  | .cmd c => { s with script := wr addrCmd c :: s.script, env := quiet :: s.env }
  | .bus w =>
    { s with
      script := .bus { we := busWe w, addr := busAddr w, wdata := busData w } :: s.script
      env := quiet :: s.env }
  | .payload p => { s with script := .command p :: s.script, env := quiet :: s.env }
  | .disc d =>
    { s with
      script := .idle :: s.script
      env := { quiet with rx := some 0x0A#8 } :: s.env
      phase := .rx
      rxst := .waitTrailer
      disc := d
      discseen := true
      elapsed := 0#16
      tmo := if s.tmo = 0#16 then 1#16 else s.tmo }

end Sys2Proof.Machine
end

