-- ==== Sys2Proof/Machine/Outputs.lean ====
section
/-! DEFINITION. The output ports in the cycle before an edge, as functions of the pre-edge state and of `rst` (R16,
R40, R41, R42, R132, R143). -/

namespace Sys2Proof.Machine

/-- `tx_valid` (R40). -/
def txValid (s : State) : Bool := !(envNow s).rst && decide (s.phase = .tx)

/-- `tx_data` (R40). The error case is a state no run reaches (log 10). -/
def txData (s : State) : Byte :=
  if txValid s then
    match frameByte s s.txidx.toNat with
    | .ok b => b
    | .error _ => 0x00#8
  else 0x00#8

/-- `rx_ready` (R41). -/
def rxReady (s : State) : Bool :=
  !(envNow s).rst && decide (s.phase = .rx) && decide (s.elapsed.toNat < s.tmo.toNat)

/-- `bus_rdata` (R42). -/
def busRdata (s : State) : Byte :=
  if (envNow s).rst then 0x00#8
  else match busPorts s with
    | some p => if p.we then 0x00#8 else readReg s p.addr
    | none => 0x00#8

/-- `irq` (R132): DONE, as a level. -/
def irq (s : State) : Bool := !(envNow s).rst && s.done

end Sys2Proof.Machine
end

