-- ==== Sys2Proof/Machine/Step.lean ====
section
/-! DEFINITION. One rising edge of `clk` (R43), and the placing of a table word for the next one. -/

namespace Sys2Proof.Machine

/-- step(S, I) of R43: reset first; then the bus part, which runs the bus host's instruction, and the engine part. -/
def step (s : State) : Host.Outcome State Fault Refusal :=
  if (envNow s).rst then .next (resetEdge s)
  else
    match hostPart s with
    | .next s' => engine s s' (envNow s)
    | .fault f => .fault f
    | .refused r => .refused r

/-- s with the table word w placed so that the very next step runs it (log 7). -/
def State.withFetchWord (s : State) (nbits w : Nat) : State := placeCode (tableCode nbits w) s

end Sys2Proof.Machine
end

