-- ==== Sys2Proof/Safety.lean ====
section
/-! DEFINITION. The terms claims use: the causes each operation may end with (R128), the invariant that every edge
keeps, and the environments of the claims about whole operations. -/

namespace Sys2Proof.Machine

/-- The causes an operation can end with, by its command code (R128); before any command CAUSE is 0 (R127). A
reserved code ends with BADCMD at its accepting edge. -/
def causeFits (code : Byte) (c : Cause) : Bool :=
  if code = 0x00#8 then decide (c = .success)
  else if code = 0x01#8 then decide (c = .success ∨ c = .overflow)
  else if code = 0x02#8 then decide (c ≠ .overflow ∧ c ≠ .badCmd)
  else if code = 0x03#8 then decide (c ≠ .badCmd)
  else decide (c = .badCmd)

/-- How many payload bytes the TX port has transferred: min(max(TXIDX - 4, 0), LEN) (R78). -/
def payloadSent (s : State) : Nat := min (s.txidx.toNat - 4) s.len.toNat

/-- What holds in every state of a run from reset, and after every edge if it held before (R30, R32, R33, R36, R78,
R86, R120, R128). -/
structure Inv (s : State) : Prop where
  /-- the parameters are legal (R6) -/
  legal : s.params.Legal
  /-- BUF's list is in canonical form -/
  bufWf : Memory.wf s.buf
  /-- BUF has the cells 0 to PCAP - 1 only (R48) -/
  bufBound : ∀ c ∈ s.buf, c.1 < pcap s
  /-- CAUSE is one that the last accepted command can end with (R127, R128) -/
  causeOk : causeFits s.lastcmd s.cause = true
  /-- DONE is 0 and CAUSE is 0 while an operation runs (R21, R46) -/
  busyClear : s.phase ≠ .idle → s.done = false ∧ s.cause = .success
  /-- only SEND and ISSUE transmit (R46) -/
  txCommand : s.phase = .tx → s.lastcmd = 0x01#8 ∨ s.lastcmd = 0x03#8
  /-- the frame fits (R72) -/
  txFits : s.phase = .tx → s.len.toNat ≤ pcap s
  /-- the index stays in the frame (R76) -/
  txIndex : s.phase = .tx → s.txidx.toNat ≤ s.len.toNat + 6
  /-- TXCK is the fold of the payload bytes transferred so far (R78) -/
  txFold : s.phase = .tx → s.txck = xorfold ((payload s).take (payloadSent s))
  /-- once the checksum is out, CKSUM holds it (R78) -/
  txSum : s.phase = .tx → s.len.toNat + 4 < s.txidx.toNat → s.cksum = xorfold (payload s)
  /-- only ISSUE settles (R118) -/
  settleCommand : s.phase = .settle → s.lastcmd = 0x03#8
  /-- SETCNT never passes SETTLE (R120) -/
  settleCount : s.phase = .settle → s.setcnt.toNat ≤ s.settle.toNat
  /-- only AWAIT and ISSUE receive (R46, R118) -/
  rxCommand : s.phase = .rx → s.lastcmd = 0x02#8 ∨ s.lastcmd = 0x03#8
  /-- ELAPSED never passes TMO in a receive (R86; log 11) -/
  rxDeadline : s.phase = .rx → s.elapsed.toNat ≤ s.tmo.toNat
  /-- a receive in Terminal has completed (R94) -/
  rxLive : s.phase = .rx → s.rxst ≠ .terminal
  /-- the byte counter is below its end while the decoder counts (R93) -/
  rxCount : s.phase = .rx → s.rxst = .payload → s.rxcnt.toNat ≤ s.rxlen.toNat
  /-- the discriminator is captured before the frame can end (R93) -/
  rxSeen : s.phase = .rx → s.rxst = .waitTrailer → s.discseen = true

/-- k edges, stopping at the first fault or refusal. -/
def run (k : Nat) (s : State) : Host.Outcome State Fault Refusal := Host.Core.run Sys2Proof.core k s

/-- The first k edges bring the inputs es, in order. -/
abbrev envStarts (es : List EnvInput) (s : State) : Prop := ∃ later, s.env = es ++ later

/-- An edge without `rst` or `tick` at which the transport offers b. -/
def offers (b : Byte) : EnvInput := { rst := false, tick := false, txReady := false, rx := some b }

/-- An edge with only a `tick`. -/
def ticks : EnvInput := { rst := false, tick := true, txReady := false, rx := none }

/-- The cause a discriminator selects (R95). -/
def causeOf (d : Byte) : Cause :=
  if d = 0x83#8 then .success else if d = 0x84#8 then .nack else .unrecognized

end Sys2Proof.Machine
end

