-- ==== Sys2Proof/Certificates/Slice0/Obligations.lean ====
section
/-! DEFINITION. The statements for the provers. Each docstring names the rules of spec/ it rests on. `exec i s` is the
part of an edge that is the instruction's own; `step` is the whole edge (log 1). -/

open Sys2Proof Sys2Proof.Machine

/-! ### Encoding -/

/-- Every well-formed instruction is what its word decodes to, for every operand value (R64, R69, R95, R102). -/
def Obligations.DecodeInvertsEncode : Prop :=
  ∀ i : Instr, i.wellFormed = true → decode (encode i) = .ok i

/-- A word that decodes has one meaning: it is the word of the instruction it decodes to, which is well formed. -/
def Obligations.EncodeInvertsDecode : Prop :=
  ∀ (c : Code) (i : Instr), decode c = .ok i → encode i = c ∧ i.wellFormed = true

/-- Words written out from R64, R69, R70, R95, R107, R110 and the bus words of 95_test_vectors P1 to P4 decode to their
instructions; a read's word whose data bits are not 0 is rejected by name, which is the model's choice (log 13). -/
def Obligations.WordsOfTheSpecDecode : Prop :=
  decode (.bus 0x2001#14) = .ok (.wrCmd 0x01#8) ∧ decode (.bus 0x0100#14) = .ok .rdStatus ∧
  decode (.bus 0x260C#14) = .ok (.wrData 0x0C#8) ∧ decode (.bus 0x2142#14) = .ok (.wrStatus 0x42#8) ∧
  decode (.bus 0x1100#14) = .ok .rdElapsedLo ∧ decode (.bus 0x3455#14) = .ok (.wrRsv1417 0#2 0x55#8) ∧
  decode (.bus 0x0101#14) = .error .readWithData ∧
  decode (.cmd 0x03#8) = .ok .issue ∧ decode (.cmd 0x07#8) = .ok (.reserved0407 3#2) ∧
  decode (.disc 0x83#8) = .ok .ack ∧ decode (.disc 0x85#8) = .ok (.unrecognized 0x85#8) ∧
  decode (.payload [0x04#8, 0x01#8]) = .ok .factoryDefault ∧
  decode (.payload [0x62#8, 0x01#8, 0x01#8, 0x00#8, 0x0F#8, 0x00#8, 0x00#8, 0x00#8, 0x00#8]) =
    .ok (.configureSbas 0x01#8 0x00#8 0x0F#8 0x00#8 0x00#8 0x00#8 0x00#8)

/-! ### The edge -/

/-- An edge without `rst` runs the instruction the bus host's next item decodes to, on the state with the edge's inputs
used up, and then the engine (R43); an edge without an item runs the engine alone; with PHASE = IDLE before the edge the
engine adds nothing to the bus part. -/
def Obligations.StepRunsDecodedInstruction : Prop :=
  ∀ s : State, (envNow s).rst = false →
    (∀ c i t, hostCode s = some c → decode c = .ok i → exec i (nextCycle s) = .next t →
      step s = engine s t (envNow s)) ∧
    (hostCode s = none → step s = engine s (nextCycle s) (envNow s)) ∧
    (∀ t, s.phase = .idle → hostPart s = .next t → step s = .next t)

/-- WAITDONE reads STATUS at each edge and stays until it has read DONE = 1 (R70). -/
def Obligations.WaitDoneRepeatsUntilDone : Prop :=
  ∀ (s : State) (rest : List HostOp), s.script = .waitDone :: rest →
    ∃ t, hostPart s = .next t ∧ t.rdLog = s.rdLog ++ [statusByte s] ∧
      (s.done = false → t.script = .waitDone :: rest) ∧ (s.done = true → t.script = rest)

/-- The byte a read records is the one `bus_rdata` carries in that cycle (R42). -/
def Obligations.ReadsRecordBusRdata : Prop :=
  ∀ (s : State) (p : BusPorts), (envNow s).rst = false → busPorts s = some p → p.we = false →
    busRdata s = readReg s p.addr ∧ ∃ t, hostPart s = .next t ∧ t.rdLog = s.rdLog ++ [busRdata s]

/-! ### Command codes -/

/-- NOP has no effect, idle or busy (R44, R46). -/
def Obligations.NopHasNoEffect : Prop := ∀ s : State, exec .nop s = .next s

/-- SEND and ISSUE, accepted with a frame that fits, start the transmit phase and change nothing else (R46, R75). -/
def Obligations.SendAndIssueStartTransmit : Prop :=
  ∀ s : State, s.phase = .idle → s.len.toNat + 7 ≤ s.params.cap →
    exec .send s = .next { s with
      lastcmd := 0x01#8, done := false, cause := .success, phase := .tx, txidx := 0#17, txck := 0x00#8 } ∧
    exec .issue s = .next { s with
      lastcmd := 0x03#8, done := false, cause := .success, phase := .tx, txidx := 0#17, txck := 0x00#8 }

/-- AWAIT, accepted, starts a fresh receive and changes nothing else (R46, R84). -/
def Obligations.AwaitStartsFreshReceive : Prop :=
  ∀ s : State, s.phase = .idle →
    exec .await s = .next { s with
      lastcmd := 0x02#8, done := false, cause := .success, phase := .rx, rxst := .waitSync1, rxlen := 0#16,
      rxcnt := 0#17, disc := 0x00#8, discseen := false, elapsed := 0#16 }

/-- SEND and ISSUE, accepted with LEN + 7 > CAP, set LASTCMD to their code (R46) and complete at once with OVERFLOW;
PHASE stays IDLE, and CKSUM, TXIDX, TXCK and everything else but LASTCMD, DONE and CAUSE is unchanged (R72, R121). -/
def Obligations.OversizedPayloadOverflows : Prop :=
  ∀ s : State, s.phase = .idle → s.params.cap < s.len.toNat + 7 →
    exec .send s = .next { s with lastcmd := 0x01#8, done := true, cause := .overflow } ∧
    exec .issue s = .next { s with lastcmd := 0x03#8, done := true, cause := .overflow }

/-- A reserved code, accepted, sets LASTCMD, completes with BADCMD (so DONE = 1 and RESULT = 0) and changes nothing
else; while busy it only sets CMDLOST (R65, R130). -/
def Obligations.ReservedCodesEndInBadcmd : Prop :=
  ∀ (s : State) (k2 : BitVec 2) (k3 : BitVec 3) (k4 : BitVec 4) (k5 : BitVec 5) (k6 : BitVec 6) (k7 : BitVec 7),
    let bad (i : Instr) (code : Nat) : Prop :=
      (s.phase = .idle →
        exec i s = .next { s with lastcmd := BitVec.ofNat 8 code, done := true, cause := .badCmd }) ∧
      (s.phase ≠ .idle → exec i s = .next { s with cmdlost := true })
    bad (.reserved0407 k2) (0x04 + k2.toNat) ∧ bad (.reserved080F k3) (0x08 + k3.toNat) ∧
    bad (.reserved101F k4) (0x10 + k4.toNat) ∧ bad (.reserved203F k5) (0x20 + k5.toNat) ∧
    bad (.reserved407F k6) (0x40 + k6.toNat) ∧ bad (.reserved80FF k7) (0x80 + k7.toNat)

/-- While PHASE ≠ IDLE every bus write but one to STATUS is ignored; a nonzero code written to CMD only sets
CMDLOST, whatever the command (R45). -/
def Obligations.WritesWhileBusyAreIgnored : Prop :=
  ∀ (s : State) (a : Addr) (d : Byte), s.phase ≠ .idle → a ≠ 0x01#5 →
    (a = 0x00#5 → d ≠ 0x00#8 → exec (decodeWrite a d) s = .next { s with cmdlost := true }) ∧
    (a ≠ 0x00#5 ∨ d = 0x00#8 → exec (decodeWrite a d) s = .next s) ∧
    exec .send s = .next { s with cmdlost := true } ∧ exec .await s = .next { s with cmdlost := true } ∧
    exec .issue s = .next { s with cmdlost := true }

/-- A write to CMD is the command its byte decodes to, in every state (R44, R46, R64). -/
def Obligations.WriteToCmdRunsTheCode : Prop :=
  ∀ (s : State) (d : Byte), exec (.wrCmd d) s = exec (decodeCmd d) s

/-- accept() of R46, code by code, for a write to CMD while idle. -/
def Obligations.WriteToCmdWhileIdle : Prop :=
  ∀ (s : State) (d : Byte), s.phase = .idle →
    (d = 0x00#8 → exec (.wrCmd d) s = .next s) ∧
    (d = 0x01#8 ∨ d = 0x03#8 → s.len.toNat + 7 ≤ s.params.cap → exec (.wrCmd d) s = .next { s with
      lastcmd := d, done := false, cause := .success, phase := .tx, txidx := 0#17, txck := 0x00#8 }) ∧
    (d = 0x01#8 ∨ d = 0x03#8 → s.params.cap < s.len.toNat + 7 →
      exec (.wrCmd d) s = .next { s with lastcmd := d, done := true, cause := .overflow }) ∧
    (d = 0x02#8 → exec (.wrCmd d) s = .next { s with
      lastcmd := d, done := false, cause := .success, phase := .rx, rxst := .waitSync1, rxlen := 0#16,
      rxcnt := 0#17, disc := 0x00#8, discseen := false, elapsed := 0#16 }) ∧
    (4 ≤ d.toNat → exec (.wrCmd d) s = .next { s with lastcmd := d, done := true, cause := .badCmd })

/-! ### Bus writes and reads -/

/-- While idle a write to a half of LEN, PTR, TMO or SETTLE replaces that half and nothing else (R22, R23, R28, R29,
R44; high byte at the lower address, R51). -/
def Obligations.ParameterWritesWhileIdle : Prop :=
  ∀ (s : State) (d : Byte), s.phase = .idle →
    exec (.wrLenHi d) s = .next { s with len := d ++ s.len.extractLsb' 0 8 } ∧
    exec (.wrLenLo d) s = .next { s with len := s.len.extractLsb' 8 8 ++ d } ∧
    exec (.wrPtrHi d) s = .next { s with ptr := d ++ s.ptr.extractLsb' 0 8 } ∧
    exec (.wrPtrLo d) s = .next { s with ptr := s.ptr.extractLsb' 8 8 ++ d } ∧
    exec (.wrTmoHi d) s = .next { s with tmo := d ++ s.tmo.extractLsb' 0 8 } ∧
    exec (.wrTmoLo d) s = .next { s with tmo := s.tmo.extractLsb' 8 8 ++ d } ∧
    exec (.wrSettleHi d) s = .next { s with settle := d ++ s.settle.extractLsb' 0 8 } ∧
    exec (.wrSettleLo d) s = .next { s with settle := s.settle.extractLsb' 8 8 ++ d }

/-- A write to STATUS clears DONE by bit 1 and CMDLOST by bit 6, in any phase, and ignores the other bits (R21, R44,
R67). -/
def Obligations.StatusWriteClearsFlags : Prop :=
  ∀ (s : State) (d : Byte), exec (.wrStatus d) s = .next { s with
    done := s.done && !d.getLsbD 1, cmdlost := s.cmdlost && !d.getLsbD 6 }

/-- A read of a reserved address returns 0x00 with no side effect; a write to a reserved address or to a read-only
register is ignored; neither is recorded (R66). -/
def Obligations.ReservedAndReadOnlyAddresses : Prop :=
  ∀ (s : State) (d : Byte),
    (∀ a, exec (.rdRsv1417 a) s = .next { s with rdLog := s.rdLog ++ [0x00#8] } ∧ exec (.wrRsv1417 a d) s = .next s) ∧
    (∀ a, exec (.rdRsv181F a) s = .next { s with rdLog := s.rdLog ++ [0x00#8] } ∧ exec (.wrRsv181F a d) s = .next s) ∧
    exec (.wrCksum d) s = .next s ∧ exec (.wrDisc d) s = .next s ∧ exec (.wrState d) s = .next s ∧
    exec (.wrRxlenHi d) s = .next s ∧ exec (.wrRxlenLo d) s = .next s ∧ exec (.wrElapsedHi d) s = .next s ∧
    exec (.wrElapsedLo d) s = .next s ∧ exec (.wrPcapHi d) s = .next s ∧ exec (.wrPcapLo d) s = .next s

/-- A read of a register other than DATA returns it and has no side effect, in every phase (R42, R54). -/
def Obligations.RegisterReadsHaveNoSideEffect : Prop :=
  ∀ s : State,
    let reads (i : Instr) (v : Byte) : Prop := exec i s = .next { s with rdLog := s.rdLog ++ [v] }
    reads .rdCmd s.lastcmd ∧ reads .rdStatus (statusByte s) ∧
    reads .rdLenHi (s.len.extractLsb' 8 8) ∧ reads .rdLenLo (s.len.extractLsb' 0 8) ∧
    reads .rdPtrHi (s.ptr.extractLsb' 8 8) ∧ reads .rdPtrLo (s.ptr.extractLsb' 0 8) ∧
    reads .rdCksum s.cksum ∧ reads .rdDisc s.disc ∧ reads .rdState (stateByte s) ∧
    reads .rdRxlenHi (s.rxlen.extractLsb' 8 8) ∧ reads .rdRxlenLo (s.rxlen.extractLsb' 0 8) ∧
    reads .rdTmoHi (s.tmo.extractLsb' 8 8) ∧ reads .rdTmoLo (s.tmo.extractLsb' 0 8) ∧
    reads .rdSettleHi (s.settle.extractLsb' 8 8) ∧ reads .rdSettleLo (s.settle.extractLsb' 0 8) ∧
    reads .rdElapsedHi (s.elapsed.extractLsb' 8 8) ∧ reads .rdElapsedLo (s.elapsed.extractLsb' 0 8) ∧
    reads .rdPcapHi (BitVec.ofNat 8 ((s.params.cap - 7) / 256)) ∧ reads .rdPcapLo (BitVec.ofNat 8 (s.params.cap - 7))

/-- A write to DATA while idle stores at PTR if PTR < PCAP, and nothing otherwise, and moves PTR on mod 2^16; every
other cell reads as before and nothing else changes. While busy it is ignored (R49). -/
def Obligations.DataWriteStoresAtPtr : Prop :=
  ∀ (s : State) (d : Byte),
    (s.phase = .idle → ∃ t, exec (.wrData d) s = .next t ∧ t = { s with ptr := s.ptr + 1#16, buf := t.buf } ∧
      ∀ j, bufRead t j = if j = s.ptr.toNat ∧ s.ptr.toNat < s.params.cap - 7 then d else bufRead s j) ∧
    (s.phase ≠ .idle → exec (.wrData d) s = .next s)

/-- A read of DATA while idle returns the cell at PTR, 0x00 from PCAP on, and moves PTR on mod 2^16; while busy it
returns 0x00 and changes nothing (R42, R50). -/
def Obligations.DataReadReturnsCellAtPtr : Prop :=
  ∀ s : State,
    (s.phase = .idle → s.ptr.toNat < s.params.cap - 7 →
      exec .rdData s = .next { s with ptr := s.ptr + 1#16, rdLog := s.rdLog ++ [bufRead s s.ptr.toNat] }) ∧
    (s.phase = .idle → s.params.cap - 7 ≤ s.ptr.toNat →
      exec .rdData s = .next { s with ptr := s.ptr + 1#16, rdLog := s.rdLog ++ [0x00#8] }) ∧
    (s.phase ≠ .idle → exec .rdData s = .next { s with rdLog := s.rdLog ++ [0x00#8] })

/-- The bits of STATUS and of STATE as they read (R21, R26, R32, R36, R67, R127). -/
def Obligations.StatusAndStateBits : Prop :=
  ∀ s : State,
    ((statusByte s).getLsbD 0 = true ↔ s.phase ≠ .idle) ∧ (statusByte s).getLsbD 1 = s.done ∧
    ((statusByte s).getLsbD 2 = true ↔ s.done = true ∧ s.cause = .success) ∧
    ((statusByte s).extractLsb' 3 3).toNat =
      (match s.cause with
        | .success => 0 | .nack => 1 | .unrecognized => 2 | .timeout => 3 | .overflow => 4 | .badCmd => 5) ∧
    (statusByte s).getLsbD 6 = s.cmdlost ∧ (statusByte s).getLsbD 7 = false ∧
    (stateByte s).toNat =
      8 * (match s.phase with | .idle => 0 | .tx => 1 | .settle => 2 | .rx => 3) +
        (match s.rxst with
          | .waitSync1 => 0 | .waitSync2 => 1 | .lenHigh => 2 | .lenLow => 3 | .payload => 4 | .waitTrailer => 5
          | .terminal => 6)

/-- No instruction but a DATA write changes a cell of BUF (R48). -/
def Obligations.OnlyDataWritesChangeBuf : Prop :=
  ∀ (i : Instr) (s t : State), (∀ d, i ≠ .wrData d) → exec i s = .next t → ∀ j, bufRead t j = bufRead s j

/-- Which instructions can change the registers the bus host owns: LEN, PTR, TMO and SETTLE each change only under a
write of that register, and PTR under a DATA access too (R44, R49, R50, R53). -/
def Obligations.ParametersChangeOnlyUnderTheirWrites : Prop :=
  ∀ (i : Instr) (s t : State), exec i s = .next t →
    (t.len = s.len ∨ (∃ d, i = .wrLenHi d) ∨ ∃ d, i = .wrLenLo d) ∧
    (t.ptr = s.ptr ∨ (∃ d, i = .wrPtrHi d) ∨ (∃ d, i = .wrPtrLo d) ∨ i = .rdData ∨ ∃ d, i = .wrData d) ∧
    (t.tmo = s.tmo ∨ (∃ d, i = .wrTmoHi d) ∨ ∃ d, i = .wrTmoLo d) ∧
    (t.settle = s.settle ∨ (∃ d, i = .wrSettleHi d) ∨ ∃ d, i = .wrSettleLo d)

/-- No instruction by itself transfers or consumes a byte, moves a tick counter or touches CKSUM: the engine does
(R17, R43, R77, R86, R120). -/
def Obligations.InstructionsLeaveTheEngineRecords : Prop :=
  ∀ (i : Instr) (s t : State), exec i s = .next t →
    t.txLog = s.txLog ∧ t.rxLog = s.rxLog ∧ t.cksum = s.cksum ∧ t.setcnt = s.setcnt ∧ t.params = s.params ∧
    t.epoch = s.epoch ∧ t.env = s.env ∧ t.edge = s.edge ∧
    (s.phase ≠ .idle → t.txidx = s.txidx ∧ t.txck = s.txck ∧ t.elapsed = s.elapsed ∧ t.rxlen = s.rxlen ∧
      t.rxcnt = s.rxcnt ∧ t.disc = s.disc ∧ t.discseen = s.discseen ∧ t.lastcmd = s.lastcmd)

/-! ### Discriminators -/

/-- At the frame's end the decoder reaches Terminal and the receive completes: 0x83 with SUCCESS, 0x84 with NACK, any
other with UNRECOGNIZED; RESULT is 1 only for SUCCESS; nothing else changes (R95, R129). -/
def Obligations.DiscriminatorSelectsCause : Prop :=
  ∀ s : State,
    exec .ack s = .next { s with rxst := .terminal, phase := .idle, done := true, cause := .success } ∧
    exec .nack s = .next { s with rxst := .terminal, phase := .idle, done := true, cause := .nack } ∧
    (∀ d, exec (.unrecognized d) s =
      .next { s with rxst := .terminal, phase := .idle, done := true, cause := .unrecognized }) ∧
    ∀ (d : Byte) (t : State), exec (decodeDisc d) s = .next t → (result t = true ↔ d = 0x83#8)

/-! ### The bus host's commands -/

/-- The commands without a documented range are always issued: their bytes, in the catalogue's order, go to the front
of the bus host's script (R102, R106, R109, R110, R112, R113). That a valid command is issued this way is log 8. -/
def Obligations.CommandsWithoutRangeAreIssued : Prop :=
  ∀ (s : State) (m a mo d h mi se : Byte) (y la lo al : Half) (ps pc us uc ud : Half),
    let issues (i : Instr) (p : List Byte) : Prop :=
      exec i s = .next { s with script := issueScript p ++ s.script, validationError := false }
    let hi (v : Half) : Byte := v.extractLsb' 8 8
    let low (v : Half) : Byte := v.extractLsb' 0 8
    issues (.setConstellation m a) [0x64#8, 0x19#8, 0x00#8, m, a] ∧
    issues (.systemRestart m y mo d h mi se la lo al)
      [0x01#8, m, hi y, low y, mo, d, h, mi, se, hi la, low la, hi lo, low lo, hi al, low al] ∧
    issues .factoryDefault [0x04#8, 0x01#8] ∧
    issues (.positionRate m a) [0x0E#8, m, a] ∧
    issues (.positionPinningParams ps pc us uc ud a)
      [0x3B#8, hi ps, low ps, hi pc, low pc, hi us, low us, hi uc, low uc, hi ud, low ud, a]

/-- The commands with documented ranges are issued when every such field is in its range, both ends included
(R102, R103, R107, R108, R111, R114, R115, R116). That a valid command is issued this way is log 8. -/
def Obligations.CommandsInRangeAreIssued : Prop :=
  ∀ (s : State) (e r u c n m a : Byte) (p h g : Half),
    let issues (i : Instr) (p : List Byte) : Prop :=
      exec i s = .next { s with script := issueScript p ++ s.script, validationError := false }
    let hi (v : Half) : Byte := v.extractLsb' 8 8
    let low (v : Half) : Byte := v.extractLsb' 0 8
    (e.toNat ≤ 1 → r.toNat ≤ 2 → u.toNat ≤ 15 → c.toNat ≤ 1 → n.toNat ≤ 3 →
      issues (.configureSbas e r u c n m a) [0x62#8, 0x01#8, e, r, u, c, n, m, a]) ∧
    (e.toNat ≤ 1 → n.toNat ≤ 3 → issues (.configureQzss e n a) [0x62#8, 0x03#8, e, n, a]) ∧
    (m.toNat ≤ 1 → issues (.powerMode m a) [0x0C#8, m, a]) ∧
    (m.toNat ≤ 2 → issues (.positionPinning m a) [0x39#8, m, a]) ∧
    (m.toNat ≤ 4 → 5 ≤ p.toNat → p.toNat ≤ 300 → 5 ≤ h.toNat → h.toNat ≤ 300 → 5 ≤ g.toNat → g.toNat ≤ 300 →
      issues (.dopMask m p h g a) [0x2A#8, m, hi p, low p, hi h, low h, hi g, low g, a]) ∧
    (m.toNat ≤ 2 → issues (.nmeaTalkerId m a) [0x4B#8, m, a])

/-- A field out of its documented range is a ValidationError: nothing is put in the script, so the bus host writes no
CMD for it, and the block's registers are unchanged (R103, R107, R108, R111, R114, R115, R116). -/
def Obligations.OutOfRangeIsValidationError : Prop :=
  ∀ (s : State) (e r u c n m a : Byte) (p h g : Half),
    let rejects (i : Instr) : Prop := exec i s = .next { s with validationError := true }
    (1 < e.toNat ∨ 2 < r.toNat ∨ 15 < u.toNat ∨ 1 < c.toNat ∨ 3 < n.toNat → rejects (.configureSbas e r u c n m a)) ∧
    (1 < e.toNat ∨ 3 < n.toNat → rejects (.configureQzss e n a)) ∧
    (1 < m.toNat → rejects (.powerMode m a)) ∧
    (2 < m.toNat → rejects (.positionPinning m a)) ∧
    (4 < m.toNat ∨ p.toNat < 5 ∨ 300 < p.toNat ∨ h.toNat < 5 ∨ 300 < h.toNat ∨ g.toNat < 5 ∨ 300 < g.toNat →
      rejects (.dopMask m p h g a)) ∧
    (2 < m.toNat → rejects (.nmeaTalkerId m a))

/-- What the bus host does for a valid command with payload p: PTR, the payload through DATA, LEN, ISSUE, then it
waits for DONE and reads STATUS (R70, R146). -/
def Obligations.IssueScriptIsTheBootOrder : Prop :=
  ∀ p : List Byte,
    let w (a : Addr) (d : Byte) : HostOp := .bus { we := true, addr := a, wdata := d }
    issueScript p = [w 0x04#5 0x00#8, w 0x05#5 0x00#8] ++ p.map (w 0x06#5) ++
      [w 0x02#5 (BitVec.ofNat 8 (p.length / 256)), w 0x03#5 (BitVec.ofNat 8 p.length), w 0x00#5 0x03#8, .waitDone,
        .bus { we := false, addr := 0x01#5, wdata := 0x00#8 }]

/-- LOAD and WR16 LEN, run from an idle block with no `rst`, leave the payload in BUF from cell 0, LEN and PTR at its
length and PHASE idle, for every payload of at most PCAP bytes (R49, R70). -/
def Obligations.LoadedPayloadStandsInBuf : Prop :=
  ∀ (s : State) (p : List Byte) (rest : List HostOp) (es : List EnvInput), s.params.Legal → s.phase = .idle →
    s.script = loadFrame p ++ rest → p.length ≤ s.params.cap - 7 →
    envStarts es s → es.length = p.length + 4 → (∀ e ∈ es, e.rst = false) →
    ∃ t : State, run (p.length + 4) s = .next t ∧ payload t = p ∧
      t.len.toNat = p.length ∧ t.ptr.toNat = p.length ∧ t.phase = .idle ∧ t.script = rest

/-! ### Transmit -/

/-- With `tx_ready` = 0 the transmit phase holds: the engine adds nothing to the bus part (R77, R80). -/
def Obligations.StalledTransmitHolds : Prop :=
  ∀ s t : State, (envNow s).rst = false → s.phase = .tx → (envNow s).txReady = false → hostPart s = .next t →
    step s = .next t

/-- While a byte is offered and not taken, the next cycle offers the same byte, whatever the bus host does (R17, R80). -/
def Obligations.StalledByteIsStable : Prop :=
  ∀ s t : State, (envNow s).rst = false → s.phase = .tx → (envNow s).txReady = false → step s = .next t →
    (envNow t).rst = false → txValid t = true ∧ txData t = txData s

/-- A transfer before the last byte (R76, R77): the byte goes out, TXIDX moves on, a payload byte is folded into TXCK
and the checksum byte, TXCK, is kept in CKSUM; nothing else is changed by the engine. -/
def Obligations.TransferAdvancesTheFrame : Prop :=
  ∀ s t : State, Inv s → (envNow s).rst = false → s.phase = .tx → (envNow s).txReady = true → hostPart s = .next t →
    s.txidx.toNat < s.len.toNat + 6 →
    step s = .next { t with
      txLog := t.txLog ++ [txData s]
      txidx := s.txidx + 1#17
      txck := if 4 ≤ s.txidx.toNat ∧ s.txidx.toNat < 4 + s.len.toNat then
          s.txck ^^^ bufRead s (s.txidx.toNat - 4) else t.txck
      cksum := if s.txidx.toNat = 4 + s.len.toNat then s.txck else t.cksum }

/-- The transfer of END2 ends the frame: a SEND completes with SUCCESS, an ISSUE goes to SETTLE with SETCNT = 0; TXIDX
stays at LEN + 6 (R77, R119). -/
def Obligations.LastTransferEndsTheFrame : Prop :=
  ∀ s t : State, Inv s → (envNow s).rst = false → s.phase = .tx → (envNow s).txReady = true → hostPart s = .next t →
    s.txidx.toNat = s.len.toNat + 6 →
    (s.lastcmd = 0x01#8 → step s = .next { t with
      txLog := t.txLog ++ [0x0A#8], phase := .idle, done := true, cause := .success }) ∧
    (s.lastcmd = 0x03#8 → step s = .next { t with txLog := t.txLog ++ [0x0A#8], phase := .settle, setcnt := 0#16 })

/-- The byte on `tx_data` is the byte of encode(BUF[0..LEN-1]) at TXIDX (R40, R71, R76, R78). -/
def Obligations.OfferedByteIsOfTheFrame : Prop :=
  ∀ s : State, Inv s → (envNow s).rst = false → s.phase = .tx →
    txValid s = true ∧ (frameOf (payload s))[s.txidx.toNat]? = some (txData s)

/-- A frame goes out whole and in order (R55, R58, R79): if the bytes of this operation so far are the first TXIDX
bytes of the frame, then after any edge without `rst` either the same holds with PHASE = TX, for the same payload, or
the operation has left TX having transferred the whole frame, with CKSUM its checksum. -/
def Obligations.FrameGoesOutWhole : Prop :=
  ∀ (s t : State) (before : List Byte), Inv s → (envNow s).rst = false → s.phase = .tx → step s = .next t →
    s.txLog = before ++ (frameOf (payload s)).take s.txidx.toNat →
    (t.phase = .tx ∧ payload t = payload s ∧ t.txLog = before ++ (frameOf (payload s)).take t.txidx.toNat) ∨
    (t.phase ≠ .tx ∧ t.txLog = before ++ frameOf (payload s) ∧ t.cksum = xorfold (payload s))

/-- SEND, once accepted, with `tx_ready` = 1 at every edge and an idle bus: after LEN + 7 edges the TX port has
transferred exactly encode(BUF[0..LEN-1]) and the operation is complete with SUCCESS (R79, R82). -/
def Obligations.SendTransfersItsFrame : Prop :=
  ∀ (s a : State) (es : List EnvInput), Inv s → s.phase = .idle → s.len.toNat + 7 ≤ s.params.cap →
    exec .send s = .next a → a.script = [] → envStarts es a → es.length = a.len.toNat + 7 →
    (∀ e ∈ es, e.rst = false ∧ e.txReady = true) →
    ∃ t : State, run (a.len.toNat + 7) a = .next t ∧ t.txLog = s.txLog ++ frameOf (payload s) ∧
      t.phase = .idle ∧ t.done = true ∧ t.cause = .success ∧ t.cksum = xorfold (payload s)

/-! ### Settle -/

/-- A SETTLE edge (R84, R120): the receive starts once SETCNT ≥ SETTLE (with SETTLE = 0 at the first edge), otherwise a
tick is counted; `rx_ready` is 0. -/
def Obligations.SettleEdge : Prop :=
  ∀ s t : State, (envNow s).rst = false → s.phase = .settle → hostPart s = .next t →
    rxReady s = false ∧
    (s.settle.toNat ≤ s.setcnt.toNat → step s = .next { t with
      phase := .rx, rxst := .waitSync1, rxlen := 0#16, rxcnt := 0#17, disc := 0x00#8, discseen := false,
      elapsed := 0#16 }) ∧
    (s.setcnt.toNat < s.settle.toNat → (envNow s).tick = true → step s = .next { t with setcnt := s.setcnt + 1#16 }) ∧
    (s.setcnt.toNat < s.settle.toNat → (envNow s).tick = false → step s = .next t)

/-! ### Receive -/

/-- A receive edge that finds ELAPSED ≥ TMO completes with TIMEOUT: no byte is consumed, whatever is offered, and
nothing else changes (R87, R88, R129). -/
def Obligations.DeadlineEndsTheReceive : Prop :=
  ∀ s t : State, (envNow s).rst = false → s.phase = .rx → s.tmo.toNat ≤ s.elapsed.toNat → hostPart s = .next t →
    rxReady s = false ∧ step s = .next { t with phase := .idle, done := true, cause := .timeout }

/-- A receive edge before the deadline with no byte offered only counts its tick (R85, R86). -/
def Obligations.ReceiveEdgeWithoutByte : Prop :=
  ∀ s t : State, (envNow s).rst = false → s.phase = .rx → s.elapsed.toNat < s.tmo.toNat → hostPart s = .next t →
    (envNow s).rx = none →
    rxReady s = true ∧
      step s = .next { t with elapsed := if (envNow s).tick then s.elapsed + 1#16 else t.elapsed }

/-- The two sync states (R89, R90): 0xA0 then 0xA1 lead on; a mismatch in WaitSync2 is discarded and goes back to
WaitSync1, even when it is 0xA0. The byte is consumed and the tick counted (R85). -/
def Obligations.SyncBytes : Prop :=
  ∀ (s t : State) (b : Byte), (envNow s).rst = false → s.phase = .rx → s.elapsed.toNat < s.tmo.toNat →
    hostPart s = .next t → (envNow s).rx = some b →
    let t' := { t with
      elapsed := if (envNow s).tick then s.elapsed + 1#16 else t.elapsed, rxLog := t.rxLog ++ [b] }
    (s.rxst = .waitSync1 → b = 0xA0#8 → step s = .next { t' with rxst := .waitSync2 }) ∧
    (s.rxst = .waitSync1 → b ≠ 0xA0#8 → step s = .next { t' with rxst := .waitSync1 }) ∧
    (s.rxst = .waitSync2 → b = 0xA1#8 → step s = .next { t' with rxst := .lenHigh }) ∧
    (s.rxst = .waitSync2 → b ≠ 0xA1#8 → step s = .next { t' with rxst := .waitSync1 })

/-- The two length states take any byte (R91, R92): RXLEN's high byte, then its low byte with the counter and DISCSEEN
cleared. -/
def Obligations.LengthBytes : Prop :=
  ∀ (s t : State) (b : Byte), (envNow s).rst = false → s.phase = .rx → s.elapsed.toNat < s.tmo.toNat →
    hostPart s = .next t → (envNow s).rx = some b →
    let t' := { t with
      elapsed := if (envNow s).tick then s.elapsed + 1#16 else t.elapsed, rxLog := t.rxLog ++ [b] }
    (s.rxst = .lenHigh → step s = .next { t' with rxlen := b ++ s.rxlen.extractLsb' 0 8, rxst := .lenLow }) ∧
    (s.rxst = .lenLow → step s = .next { t' with
      rxlen := s.rxlen.extractLsb' 8 8 ++ b, rxcnt := 0#17, discseen := false, rxst := .payload })

/-- A byte in state Payload (R93): the first becomes the discriminator; the counter moves on, for the first byte only
under PL_COUNT_FIRST; from RXLEN + 1 counted bytes on the decoder waits for the trailer. -/
def Obligations.PayloadBytes : Prop :=
  ∀ (s t : State) (b : Byte), Inv s → (envNow s).rst = false → s.phase = .rx → s.elapsed.toNat < s.tmo.toNat →
    hostPart s = .next t → (envNow s).rx = some b → s.rxst = .payload →
    let cnt : Nat := if s.discseen = false ∧ s.params.plCountFirst = false then s.rxcnt.toNat else s.rxcnt.toNat + 1
    step s = .next { t with
      elapsed := if (envNow s).tick then s.elapsed + 1#16 else t.elapsed
      rxLog := t.rxLog ++ [b]
      disc := if s.discseen = false then b else s.disc
      discseen := true
      rxcnt := BitVec.ofNat 17 cnt
      rxst := if s.rxlen.toNat + 1 ≤ cnt then .waitTrailer else .payload }

/-- A byte in state WaitTrailer (R94, R95): END2 ends the frame with the cause of the captured discriminator, any
other byte is discarded. -/
def Obligations.TrailerBytes : Prop :=
  ∀ (s t : State) (b : Byte), (envNow s).rst = false → s.phase = .rx → s.elapsed.toNat < s.tmo.toNat →
    hostPart s = .next t → (envNow s).rx = some b → s.rxst = .waitTrailer →
    let t' := { t with
      elapsed := if (envNow s).tick then s.elapsed + 1#16 else t.elapsed, rxLog := t.rxLog ++ [b] }
    (b = 0x0A#8 → step s = .next { t' with
      rxst := .terminal, phase := .idle, done := true
      cause := if s.disc = 0x83#8 then .success else if s.disc = 0x84#8 then .nack else .unrecognized }) ∧
    (b ≠ 0x0A#8 → step s = .next { t' with rxst := .waitTrailer })

/-- At the edge that takes END2 the discriminator is the instruction that runs, on the state with the byte consumed and
the tick counted (R95; log 21). -/
def Obligations.FrameEndRunsTheDiscriminator : Prop :=
  ∀ s t : State, (envNow s).rst = false → s.phase = .rx → s.elapsed.toNat < s.tmo.toNat → hostPart s = .next t →
    (envNow s).rx = some 0x0A#8 → s.rxst = .waitTrailer →
    step s = exec (decodeDisc s.disc) { t with
      elapsed := if (envNow s).tick then s.elapsed + 1#16 else t.elapsed, rxLog := t.rxLog ++ [0x0A#8] }

/-- A well-formed frame decodes under both readings of PL_COUNT_FIRST, whatever its checksum byte (R93, R96, R101): a
fresh receive that is offered a frame of a nonempty payload back to back, with no tick, is still in RX after every byte
but END2, and completes at the edge that takes END2, having consumed the whole frame, with the cause its first payload
byte selects. -/
def Obligations.WellFormedFrameDecodes : Prop :=
  ∀ (s : State) (d ck : Byte) (p frame : List Byte), s.phase = .rx → s.rxst = .waitSync1 →
    s.discseen = false → s.elapsed.toNat < s.tmo.toNat → s.script = [] → p.length + 1 ≤ 65535 →
    frame = [0xA0#8, 0xA1#8, BitVec.ofNat 8 ((p.length + 1) / 256), BitVec.ofNat 8 (p.length + 1)] ++ (d :: p) ++
      [ck, 0x0D#8, 0x0A#8] → envStarts (frame.map offers) s →
    (∃ u : State, run (p.length + 7) s = .next u ∧ u.phase = .rx) ∧
    ∃ t : State, run (p.length + 8) s = .next t ∧ t.phase = .idle ∧ t.done = true ∧
      t.cause = causeOf d ∧ t.disc = d ∧ t.rxlen.toNat = p.length + 1 ∧ t.rxst = .terminal ∧
      t.rxLog = s.rxLog ++ frame

/-- No byte and a tick at every edge: a receive completes with TIMEOUT at its first edge after ELAPSED has reached TMO,
and not before (R87, R100, R155). -/
def Obligations.SilentReceiveTimesOut : Prop :=
  ∀ (s : State) (n : Nat), s.phase = .rx → s.script = [] → s.elapsed.toNat + n = s.tmo.toNat →
    envStarts (List.replicate (n + 1) ticks) s →
    (∃ t : State, run n s = .next t ∧ t.phase = .rx ∧ t.elapsed = s.tmo) ∧
    ∃ t : State, run (n + 1) s = .next t ∧ t.phase = .idle ∧ t.done = true ∧ t.cause = .timeout ∧
      t.elapsed = s.tmo ∧ t.rxLog = s.rxLog ∧ t.rxst = s.rxst

/-! ### Reset and outputs -/

/-- The reset values of R47 with the default parameters of R6. -/
def Obligations.ResetStateHoldsTheResetValues : Prop :=
  State.reset.lastcmd = 0x00#8 ∧ State.reset.done = false ∧ State.reset.cause = .success ∧
  State.reset.cmdlost = false ∧ State.reset.len = 0x0000#16 ∧ State.reset.ptr = 0x0000#16 ∧
  State.reset.cksum = 0x00#8 ∧ State.reset.disc = 0x00#8 ∧ State.reset.rxlen = 0x0000#16 ∧
  State.reset.elapsed = 0x0000#16 ∧ State.reset.tmo = 5000#16 ∧ State.reset.settle = 100#16 ∧
  State.reset.phase = .idle ∧ State.reset.txidx = 0#17 ∧ State.reset.txck = 0x00#8 ∧ State.reset.setcnt = 0#16 ∧
  State.reset.rxst = .waitSync1 ∧ State.reset.rxcnt = 0#17 ∧ State.reset.discseen = false ∧
  State.reset.params.cap = 32 ∧ State.reset.params.plCountFirst = true

/-- An edge with `rst` = 1 gives the reset values whatever the state and the other inputs, TMO and SETTLE those of the
block's own parameters TMO_RESET and SETTLE_RESET; a BUF cell then reads as a free value of a new epoch, and no byte is
transferred or consumed (R6, R47, R143, R144). -/
def Obligations.ResetEdgeGivesTheResetValues : Prop :=
  ∀ s : State, (envNow s).rst = true → ∃ t, step s = .next t ∧
    t = { State.resetWith s.params with
      script := t.script, env := s.env.tail, validationError := s.validationError, edge := s.edge + 1
      epoch := s.epoch + 1, txLog := s.txLog, rxLog := s.rxLog, rdLog := t.rdLog } ∧
    t.tmo = s.params.tmoReset ∧ t.settle = s.params.settleReset ∧
    ∀ j, bufRead t j = Config.freeBuf (s.epoch + 1) j

/-- The output ports (R40, R41, R42, R132, R143): all 0 while `rst` = 1; otherwise `tx_valid` in TX, `rx_ready` in RX
before the deadline, `irq` = DONE, `tx_data` 0x00 outside TX and `bus_rdata` 0x00 without a read. -/
def Obligations.OutputPorts : Prop :=
  ∀ s : State,
    ((envNow s).rst = true →
      txValid s = false ∧ rxReady s = false ∧ irq s = false ∧ busRdata s = 0x00#8 ∧ txData s = 0x00#8) ∧
    ((envNow s).rst = false →
      (txValid s = true ↔ s.phase = .tx) ∧ (rxReady s = true ↔ s.phase = .rx ∧ s.elapsed.toNat < s.tmo.toNat) ∧
      irq s = s.done ∧ (s.phase ≠ .tx → txData s = 0x00#8) ∧
      ((∀ p, busPorts s = some p → p.we = true) → busRdata s = 0x00#8))

/-! ### The whole machine -/

/-- The invariant holds at reset, for every legal block. -/
def Obligations.InvariantHoldsAtReset : Prop := ∀ p : Config.Params, p.Legal → Inv (State.resetWith p)

/-- Every edge keeps the invariant. -/
def Obligations.EveryEdgeKeepsTheInvariant : Prop := ∀ s t : State, Inv s → step s = .next t → Inv t

/-- The block has no fatal state (R131, R135): from a state that meets the invariant an edge raises none of the model's
three faults (log 10), and it has a next state unless the bus host's script asks for a command that is no payload of the
catalogue (log 9). -/
def Obligations.NoFatalState : Prop :=
  ∀ s : State, Inv s →
    (∀ f, step s ≠ .fault f) ∧
    ((∀ p rest, s.script = .command p :: rest → ∃ i, decodePayload p = .ok i) → ∃ t, step s = .next t)

/-- Every edge keeps BUF's list in its canonical form. -/
def Obligations.EveryEdgeKeepsBufCanonical : Prop :=
  ∀ s t : State, Memory.wf s.buf → step s = .next t → Memory.wf t.buf

/-- No edge changes a parameter (R6). -/
def Obligations.ParametersAreFixed : Prop := ∀ s t : State, step s = .next t → t.params = s.params

/-- While an operation runs, no edge without `rst` changes LEN, PTR, TMO, SETTLE, LASTCMD or BUF, whatever the bus host
does (R45, R58, R147). -/
def Obligations.RunningOperationKeepsItsOperands : Prop :=
  ∀ s t : State, s.phase ≠ .idle → (envNow s).rst = false → step s = .next t →
    t.len = s.len ∧ t.ptr = s.ptr ∧ t.tmo = s.tmo ∧ t.settle = s.settle ∧ t.lastcmd = s.lastcmd ∧
    ∀ j, bufRead t j = bufRead s j

/-- An edge that completes an operation leaves DONE = 1, also when the bus host clears DONE at that edge (R133). -/
def Obligations.CompletionWinsOverClear : Prop :=
  ∀ s t : State, s.phase ≠ .idle → (envNow s).rst = false → step s = .next t → t.phase = .idle → t.done = true

/-- A nonzero code written at an edge where PHASE ≠ IDLE is lost, at the completing edge too: CMDLOST is set and
LASTCMD stays (R134, R148). -/
def Obligations.CommandAtCompletingEdgeIsLost : Prop :=
  ∀ (s t : State) (c : Byte) (rest : List HostOp), s.phase ≠ .idle → (envNow s).rst = false →
    s.script = .bus { we := true, addr := 0x00#5, wdata := c } :: rest → c ≠ 0x00#8 → step s = .next t →
    t.cmdlost = true ∧ t.lastcmd = s.lastcmd

/-- parse(encode(P)) = P for every payload of at most 65535 bytes (R71, R81). -/
def Obligations.ParseInvertsFrame : Prop := ∀ p : List Byte, p.length ≤ 65535 → parseFrame (frameOf p) = some p

/-- Outside RX the block does not see the RX port, and while not in RX or SETTLE not the tick (R41, R77, R86, R123): two
edges that differ only there end alike. -/
def Obligations.RxPortIsUnseenOutsideReceive : Prop :=
  ∀ (s : State) (e e' : EnvInput) (later : List EnvInput), s.phase ≠ .rx → e'.rst = e.rst → e'.txReady = e.txReady →
    (s.phase = .settle → e'.tick = e.tick) →
    step { s with env := e :: later } = step { s with env := e' :: later }
end

