-- ==== Sys2Proof/Laws/Encoding.lean ====
section
/-! SUPPORT. The laws of the bus word and of the bus rows. -/

namespace Sys2Proof

@[simp] theorem busWe_busWord (we : Bool) (a : Addr) (d : Byte) : busWe (busWord we a d) = we := by
  simp only [busWe, busWord, BitVec.getLsbD_append]
  simp

@[simp] theorem busAddr_busWord (we : Bool) (a : Addr) (d : Byte) : busAddr (busWord we a d) = a := by
  apply BitVec.eq_of_getLsbD_eq
  intro i hi
  simp only [busAddr, busWord, BitVec.getLsbD_extractLsb', BitVec.getLsbD_append]
  simp [hi]

@[simp] theorem busData_busWord (we : Bool) (a : Addr) (d : Byte) : busData (busWord we a d) = d := by
  apply BitVec.eq_of_getLsbD_eq
  intro i hi
  simp only [busData, busWord, BitVec.getLsbD_extractLsb', BitVec.getLsbD_append]
  simp [hi]

/-- A bus word is the word of its three fields. -/
theorem busWord_fields (w : BitVec 14) : busWord (busWe w) (busAddr w) (busData w) = w := by
  apply BitVec.eq_of_getLsbD_eq
  intro i hi
  simp only [busWord, busWe, busAddr, busData, BitVec.getLsbD_append, BitVec.getLsbD_extractLsb', BitVec.getLsbD_ofBool]
  split_ifs with h1 h2
  · simp [h1]
  · have : i - 8 < 5 := h2
    simp [this, show 8 + (i - 8) = i by omega]
  · have : i = 13 := by omega
    simp [this]

/-- The word of a write decodes to the write row of its address. -/
theorem decode_write (a : Addr) (d : Byte) : decode (.bus (busWord true a d)) = .ok (decodeWrite a d) := by
  simp [decode, decodeBus]

/-- The word of a read decodes to the read row of its address. -/
theorem decode_read (a : Addr) : decode (.bus (busWord false a 0#8)) = .ok (decodeRead a) := by
  simp [decode, decodeBus]

/-- The row of a read address has that address's word. -/
theorem encode_decodeRead : ∀ a : Addr, encode (decodeRead a) = .bus (busWord false a 0#8) := by decide

/-- The halves of {h, l} (R51, R68). -/
@[simp] theorem hiByte_ofBytes (h l : Byte) : hiByte (ofBytes h l) = h := by
  apply BitVec.eq_of_getLsbD_eq
  intro i hi
  simp only [hiByte, ofBytes, BitVec.getLsbD_extractLsb', BitVec.getLsbD_append]
  simp [hi]

@[simp] theorem loByte_ofBytes (h l : Byte) : loByte (ofBytes h l) = l := by
  apply BitVec.eq_of_getLsbD_eq
  intro i hi
  simp only [loByte, ofBytes, BitVec.getLsbD_extractLsb', BitVec.getLsbD_append]
  simp [hi]

@[simp] theorem ofBytes_halves (v : Half) : ofBytes (hiByte v) (loByte v) = v := by
  apply BitVec.eq_of_getLsbD_eq
  intro i hi
  simp only [ofBytes, hiByte, loByte, BitVec.getLsbD_append, BitVec.getLsbD_extractLsb']
  split_ifs with h1
  · simp [h1]
  · simp [show i - 8 < 8 by omega, show 8 + (i - 8) = i by omega]

end Sys2Proof
end

