-- ==== Sys2Proof/Laws/State.lean ====
section
/-! SUPPORT. What each shared update of the state does to each field: one theorem an update, one equation a field. -/

namespace Sys2Proof.Machine

@[simp] theorem complete_fields (c : Cause) (s : State) :
    (complete c s).params = s.params ∧ (complete c s).lastcmd = s.lastcmd ∧ (complete c s).done = true ∧
    (complete c s).cause = c ∧ (complete c s).cmdlost = s.cmdlost ∧ (complete c s).len = s.len ∧
    (complete c s).ptr = s.ptr ∧ (complete c s).cksum = s.cksum ∧ (complete c s).disc = s.disc ∧
    (complete c s).rxlen = s.rxlen ∧ (complete c s).tmo = s.tmo ∧ (complete c s).settle = s.settle ∧
    (complete c s).elapsed = s.elapsed ∧ (complete c s).phase = .idle ∧ (complete c s).txidx = s.txidx ∧
    (complete c s).txck = s.txck ∧ (complete c s).setcnt = s.setcnt ∧ (complete c s).rxst = s.rxst ∧
    (complete c s).rxcnt = s.rxcnt ∧ (complete c s).discseen = s.discseen ∧ (complete c s).buf = s.buf ∧
    (complete c s).script = s.script ∧ (complete c s).env = s.env ∧
    (complete c s).validationError = s.validationError ∧ (complete c s).edge = s.edge ∧
    (complete c s).epoch = s.epoch ∧ (complete c s).txLog = s.txLog ∧ (complete c s).rxLog = s.rxLog ∧
    (complete c s).rdLog = s.rdLog :=
  ⟨rfl, rfl, rfl, rfl, rfl, rfl, rfl, rfl, rfl, rfl, rfl, rfl, rfl, rfl, rfl, rfl, rfl, rfl, rfl, rfl, rfl, rfl, rfl, rfl, rfl, rfl, rfl, rfl, rfl⟩

@[simp] theorem acknowledge_fields (s : State) :
    (acknowledge s).params = s.params ∧ (acknowledge s).lastcmd = s.lastcmd ∧ (acknowledge s).done = false ∧
    (acknowledge s).cause = s.cause ∧ (acknowledge s).cmdlost = s.cmdlost ∧ (acknowledge s).len = s.len ∧
    (acknowledge s).ptr = s.ptr ∧ (acknowledge s).cksum = s.cksum ∧ (acknowledge s).disc = s.disc ∧
    (acknowledge s).rxlen = s.rxlen ∧ (acknowledge s).tmo = s.tmo ∧ (acknowledge s).settle = s.settle ∧
    (acknowledge s).elapsed = s.elapsed ∧ (acknowledge s).phase = s.phase ∧ (acknowledge s).txidx = s.txidx ∧
    (acknowledge s).txck = s.txck ∧ (acknowledge s).setcnt = s.setcnt ∧ (acknowledge s).rxst = s.rxst ∧
    (acknowledge s).rxcnt = s.rxcnt ∧ (acknowledge s).discseen = s.discseen ∧ (acknowledge s).buf = s.buf ∧
    (acknowledge s).script = s.script ∧ (acknowledge s).env = s.env ∧
    (acknowledge s).validationError = s.validationError ∧ (acknowledge s).edge = s.edge ∧
    (acknowledge s).epoch = s.epoch ∧ (acknowledge s).txLog = s.txLog ∧ (acknowledge s).rxLog = s.rxLog ∧
    (acknowledge s).rdLog = s.rdLog :=
  ⟨rfl, rfl, rfl, rfl, rfl, rfl, rfl, rfl, rfl, rfl, rfl, rfl, rfl, rfl, rfl, rfl, rfl, rfl, rfl, rfl, rfl, rfl, rfl, rfl, rfl, rfl, rfl, rfl, rfl⟩

@[simp] theorem accept_fields (c : Byte) (s : State) :
    (accept c s).params = s.params ∧ (accept c s).lastcmd = c ∧ (accept c s).done = false ∧
    (accept c s).cause = .success ∧ (accept c s).cmdlost = s.cmdlost ∧ (accept c s).len = s.len ∧
    (accept c s).ptr = s.ptr ∧ (accept c s).cksum = s.cksum ∧ (accept c s).disc = s.disc ∧
    (accept c s).rxlen = s.rxlen ∧ (accept c s).tmo = s.tmo ∧ (accept c s).settle = s.settle ∧
    (accept c s).elapsed = s.elapsed ∧ (accept c s).phase = s.phase ∧ (accept c s).txidx = s.txidx ∧
    (accept c s).txck = s.txck ∧ (accept c s).setcnt = s.setcnt ∧ (accept c s).rxst = s.rxst ∧
    (accept c s).rxcnt = s.rxcnt ∧ (accept c s).discseen = s.discseen ∧ (accept c s).buf = s.buf ∧
    (accept c s).script = s.script ∧ (accept c s).env = s.env ∧ (accept c s).validationError = s.validationError ∧
    (accept c s).edge = s.edge ∧ (accept c s).epoch = s.epoch ∧ (accept c s).txLog = s.txLog ∧
    (accept c s).rxLog = s.rxLog ∧ (accept c s).rdLog = s.rdLog :=
  ⟨rfl, rfl, rfl, rfl, rfl, rfl, rfl, rfl, rfl, rfl, rfl, rfl, rfl, rfl, rfl, rfl, rfl, rfl, rfl, rfl, rfl, rfl, rfl, rfl, rfl, rfl, rfl, rfl, rfl⟩

@[simp] theorem commandLost_fields (s : State) :
    (commandLost s).params = s.params ∧ (commandLost s).lastcmd = s.lastcmd ∧ (commandLost s).done = s.done ∧
    (commandLost s).cause = s.cause ∧ (commandLost s).cmdlost = true ∧ (commandLost s).len = s.len ∧
    (commandLost s).ptr = s.ptr ∧ (commandLost s).cksum = s.cksum ∧ (commandLost s).disc = s.disc ∧
    (commandLost s).rxlen = s.rxlen ∧ (commandLost s).tmo = s.tmo ∧ (commandLost s).settle = s.settle ∧
    (commandLost s).elapsed = s.elapsed ∧ (commandLost s).phase = s.phase ∧ (commandLost s).txidx = s.txidx ∧
    (commandLost s).txck = s.txck ∧ (commandLost s).setcnt = s.setcnt ∧ (commandLost s).rxst = s.rxst ∧
    (commandLost s).rxcnt = s.rxcnt ∧ (commandLost s).discseen = s.discseen ∧ (commandLost s).buf = s.buf ∧
    (commandLost s).script = s.script ∧ (commandLost s).env = s.env ∧
    (commandLost s).validationError = s.validationError ∧ (commandLost s).edge = s.edge ∧
    (commandLost s).epoch = s.epoch ∧ (commandLost s).txLog = s.txLog ∧ (commandLost s).rxLog = s.rxLog ∧
    (commandLost s).rdLog = s.rdLog :=
  ⟨rfl, rfl, rfl, rfl, rfl, rfl, rfl, rfl, rfl, rfl, rfl, rfl, rfl, rfl, rfl, rfl, rfl, rfl, rfl, rfl, rfl, rfl, rfl, rfl, rfl, rfl, rfl, rfl, rfl⟩

@[simp] theorem settleStart_fields (s : State) :
    (settleStart s).params = s.params ∧ (settleStart s).lastcmd = s.lastcmd ∧ (settleStart s).done = s.done ∧
    (settleStart s).cause = s.cause ∧ (settleStart s).cmdlost = s.cmdlost ∧ (settleStart s).len = s.len ∧
    (settleStart s).ptr = s.ptr ∧ (settleStart s).cksum = s.cksum ∧ (settleStart s).disc = s.disc ∧
    (settleStart s).rxlen = s.rxlen ∧ (settleStart s).tmo = s.tmo ∧ (settleStart s).settle = s.settle ∧
    (settleStart s).elapsed = s.elapsed ∧ (settleStart s).phase = .settle ∧ (settleStart s).txidx = s.txidx ∧
    (settleStart s).txck = s.txck ∧ (settleStart s).setcnt = 0#16 ∧ (settleStart s).rxst = s.rxst ∧
    (settleStart s).rxcnt = s.rxcnt ∧ (settleStart s).discseen = s.discseen ∧ (settleStart s).buf = s.buf ∧
    (settleStart s).script = s.script ∧ (settleStart s).env = s.env ∧
    (settleStart s).validationError = s.validationError ∧ (settleStart s).edge = s.edge ∧
    (settleStart s).epoch = s.epoch ∧ (settleStart s).txLog = s.txLog ∧ (settleStart s).rxLog = s.rxLog ∧
    (settleStart s).rdLog = s.rdLog :=
  ⟨rfl, rfl, rfl, rfl, rfl, rfl, rfl, rfl, rfl, rfl, rfl, rfl, rfl, rfl, rfl, rfl, rfl, rfl, rfl, rfl, rfl, rfl, rfl, rfl, rfl, rfl, rfl, rfl, rfl⟩

@[simp] theorem rxStart_fields (s : State) :
    (rxStart s).params = s.params ∧ (rxStart s).lastcmd = s.lastcmd ∧ (rxStart s).done = s.done ∧
    (rxStart s).cause = s.cause ∧ (rxStart s).cmdlost = s.cmdlost ∧ (rxStart s).len = s.len ∧
    (rxStart s).ptr = s.ptr ∧ (rxStart s).cksum = s.cksum ∧ (rxStart s).disc = 0#8 ∧ (rxStart s).rxlen = 0#16 ∧
    (rxStart s).tmo = s.tmo ∧ (rxStart s).settle = s.settle ∧ (rxStart s).elapsed = 0#16 ∧
    (rxStart s).phase = .rx ∧ (rxStart s).txidx = s.txidx ∧ (rxStart s).txck = s.txck ∧
    (rxStart s).setcnt = s.setcnt ∧ (rxStart s).rxst = .waitSync1 ∧ (rxStart s).rxcnt = 0#17 ∧
    (rxStart s).discseen = false ∧ (rxStart s).buf = s.buf ∧ (rxStart s).script = s.script ∧
    (rxStart s).env = s.env ∧ (rxStart s).validationError = s.validationError ∧ (rxStart s).edge = s.edge ∧
    (rxStart s).epoch = s.epoch ∧ (rxStart s).txLog = s.txLog ∧ (rxStart s).rxLog = s.rxLog ∧
    (rxStart s).rdLog = s.rdLog :=
  ⟨rfl, rfl, rfl, rfl, rfl, rfl, rfl, rfl, rfl, rfl, rfl, rfl, rfl, rfl, rfl, rfl, rfl, rfl, rfl, rfl, rfl, rfl, rfl, rfl, rfl, rfl, rfl, rfl, rfl⟩

@[simp] theorem bufWrite_fields (i : Nat) (v : Byte) (s : State) :
    (bufWrite i v s).params = s.params ∧ (bufWrite i v s).lastcmd = s.lastcmd ∧ (bufWrite i v s).done = s.done ∧
    (bufWrite i v s).cause = s.cause ∧ (bufWrite i v s).cmdlost = s.cmdlost ∧ (bufWrite i v s).len = s.len ∧
    (bufWrite i v s).ptr = s.ptr ∧ (bufWrite i v s).cksum = s.cksum ∧ (bufWrite i v s).disc = s.disc ∧
    (bufWrite i v s).rxlen = s.rxlen ∧ (bufWrite i v s).tmo = s.tmo ∧ (bufWrite i v s).settle = s.settle ∧
    (bufWrite i v s).elapsed = s.elapsed ∧ (bufWrite i v s).phase = s.phase ∧ (bufWrite i v s).txidx = s.txidx ∧
    (bufWrite i v s).txck = s.txck ∧ (bufWrite i v s).setcnt = s.setcnt ∧ (bufWrite i v s).rxst = s.rxst ∧
    (bufWrite i v s).rxcnt = s.rxcnt ∧ (bufWrite i v s).discseen = s.discseen ∧
    (bufWrite i v s).buf = Memory.write s.buf i v ∧ (bufWrite i v s).script = s.script ∧
    (bufWrite i v s).env = s.env ∧ (bufWrite i v s).validationError = s.validationError ∧
    (bufWrite i v s).edge = s.edge ∧ (bufWrite i v s).epoch = s.epoch ∧ (bufWrite i v s).txLog = s.txLog ∧
    (bufWrite i v s).rxLog = s.rxLog ∧ (bufWrite i v s).rdLog = s.rdLog :=
  ⟨rfl, rfl, rfl, rfl, rfl, rfl, rfl, rfl, rfl, rfl, rfl, rfl, rfl, rfl, rfl, rfl, rfl, rfl, rfl, rfl, rfl, rfl, rfl, rfl, rfl, rfl, rfl, rfl, rfl⟩

@[simp] theorem advancePtr_fields (s : State) :
    (advancePtr s).params = s.params ∧ (advancePtr s).lastcmd = s.lastcmd ∧ (advancePtr s).done = s.done ∧
    (advancePtr s).cause = s.cause ∧ (advancePtr s).cmdlost = s.cmdlost ∧ (advancePtr s).len = s.len ∧
    (advancePtr s).ptr = s.ptr + 1#16 ∧ (advancePtr s).cksum = s.cksum ∧ (advancePtr s).disc = s.disc ∧
    (advancePtr s).rxlen = s.rxlen ∧ (advancePtr s).tmo = s.tmo ∧ (advancePtr s).settle = s.settle ∧
    (advancePtr s).elapsed = s.elapsed ∧ (advancePtr s).phase = s.phase ∧ (advancePtr s).txidx = s.txidx ∧
    (advancePtr s).txck = s.txck ∧ (advancePtr s).setcnt = s.setcnt ∧ (advancePtr s).rxst = s.rxst ∧
    (advancePtr s).rxcnt = s.rxcnt ∧ (advancePtr s).discseen = s.discseen ∧ (advancePtr s).buf = s.buf ∧
    (advancePtr s).script = s.script ∧ (advancePtr s).env = s.env ∧
    (advancePtr s).validationError = s.validationError ∧ (advancePtr s).edge = s.edge ∧
    (advancePtr s).epoch = s.epoch ∧ (advancePtr s).txLog = s.txLog ∧ (advancePtr s).rxLog = s.rxLog ∧
    (advancePtr s).rdLog = s.rdLog :=
  ⟨rfl, rfl, rfl, rfl, rfl, rfl, rfl, rfl, rfl, rfl, rfl, rfl, rfl, rfl, rfl, rfl, rfl, rfl, rfl, rfl, rfl, rfl, rfl, rfl, rfl, rfl, rfl, rfl, rfl⟩

@[simp] theorem recordRead_fields (b : Byte) (s : State) :
    (recordRead b s).params = s.params ∧ (recordRead b s).lastcmd = s.lastcmd ∧ (recordRead b s).done = s.done ∧
    (recordRead b s).cause = s.cause ∧ (recordRead b s).cmdlost = s.cmdlost ∧ (recordRead b s).len = s.len ∧
    (recordRead b s).ptr = s.ptr ∧ (recordRead b s).cksum = s.cksum ∧ (recordRead b s).disc = s.disc ∧
    (recordRead b s).rxlen = s.rxlen ∧ (recordRead b s).tmo = s.tmo ∧ (recordRead b s).settle = s.settle ∧
    (recordRead b s).elapsed = s.elapsed ∧ (recordRead b s).phase = s.phase ∧ (recordRead b s).txidx = s.txidx ∧
    (recordRead b s).txck = s.txck ∧ (recordRead b s).setcnt = s.setcnt ∧ (recordRead b s).rxst = s.rxst ∧
    (recordRead b s).rxcnt = s.rxcnt ∧ (recordRead b s).discseen = s.discseen ∧ (recordRead b s).buf = s.buf ∧
    (recordRead b s).script = s.script ∧ (recordRead b s).env = s.env ∧
    (recordRead b s).validationError = s.validationError ∧ (recordRead b s).edge = s.edge ∧
    (recordRead b s).epoch = s.epoch ∧ (recordRead b s).txLog = s.txLog ∧ (recordRead b s).rxLog = s.rxLog ∧
    (recordRead b s).rdLog = s.rdLog ++ [b] :=
  ⟨rfl, rfl, rfl, rfl, rfl, rfl, rfl, rfl, rfl, rfl, rfl, rfl, rfl, rfl, rfl, rfl, rfl, rfl, rfl, rfl, rfl, rfl, rfl, rfl, rfl, rfl, rfl, rfl, rfl⟩

@[simp] theorem recordTx_fields (b : Byte) (s : State) :
    (recordTx b s).params = s.params ∧ (recordTx b s).lastcmd = s.lastcmd ∧ (recordTx b s).done = s.done ∧
    (recordTx b s).cause = s.cause ∧ (recordTx b s).cmdlost = s.cmdlost ∧ (recordTx b s).len = s.len ∧
    (recordTx b s).ptr = s.ptr ∧ (recordTx b s).cksum = s.cksum ∧ (recordTx b s).disc = s.disc ∧
    (recordTx b s).rxlen = s.rxlen ∧ (recordTx b s).tmo = s.tmo ∧ (recordTx b s).settle = s.settle ∧
    (recordTx b s).elapsed = s.elapsed ∧ (recordTx b s).phase = s.phase ∧ (recordTx b s).txidx = s.txidx ∧
    (recordTx b s).txck = s.txck ∧ (recordTx b s).setcnt = s.setcnt ∧ (recordTx b s).rxst = s.rxst ∧
    (recordTx b s).rxcnt = s.rxcnt ∧ (recordTx b s).discseen = s.discseen ∧ (recordTx b s).buf = s.buf ∧
    (recordTx b s).script = s.script ∧ (recordTx b s).env = s.env ∧
    (recordTx b s).validationError = s.validationError ∧ (recordTx b s).edge = s.edge ∧
    (recordTx b s).epoch = s.epoch ∧ (recordTx b s).txLog = s.txLog ++ [b] ∧ (recordTx b s).rxLog = s.rxLog ∧
    (recordTx b s).rdLog = s.rdLog :=
  ⟨rfl, rfl, rfl, rfl, rfl, rfl, rfl, rfl, rfl, rfl, rfl, rfl, rfl, rfl, rfl, rfl, rfl, rfl, rfl, rfl, rfl, rfl, rfl, rfl, rfl, rfl, rfl, rfl, rfl⟩

@[simp] theorem recordRx_fields (b : Byte) (s : State) :
    (recordRx b s).params = s.params ∧ (recordRx b s).lastcmd = s.lastcmd ∧ (recordRx b s).done = s.done ∧
    (recordRx b s).cause = s.cause ∧ (recordRx b s).cmdlost = s.cmdlost ∧ (recordRx b s).len = s.len ∧
    (recordRx b s).ptr = s.ptr ∧ (recordRx b s).cksum = s.cksum ∧ (recordRx b s).disc = s.disc ∧
    (recordRx b s).rxlen = s.rxlen ∧ (recordRx b s).tmo = s.tmo ∧ (recordRx b s).settle = s.settle ∧
    (recordRx b s).elapsed = s.elapsed ∧ (recordRx b s).phase = s.phase ∧ (recordRx b s).txidx = s.txidx ∧
    (recordRx b s).txck = s.txck ∧ (recordRx b s).setcnt = s.setcnt ∧ (recordRx b s).rxst = s.rxst ∧
    (recordRx b s).rxcnt = s.rxcnt ∧ (recordRx b s).discseen = s.discseen ∧ (recordRx b s).buf = s.buf ∧
    (recordRx b s).script = s.script ∧ (recordRx b s).env = s.env ∧
    (recordRx b s).validationError = s.validationError ∧ (recordRx b s).edge = s.edge ∧
    (recordRx b s).epoch = s.epoch ∧ (recordRx b s).txLog = s.txLog ∧ (recordRx b s).rxLog = s.rxLog ++ [b] ∧
    (recordRx b s).rdLog = s.rdLog :=
  ⟨rfl, rfl, rfl, rfl, rfl, rfl, rfl, rfl, rfl, rfl, rfl, rfl, rfl, rfl, rfl, rfl, rfl, rfl, rfl, rfl, rfl, rfl, rfl, rfl, rfl, rfl, rfl, rfl, rfl⟩

@[simp] theorem frameEnd_fields (c : Cause) (s : State) :
    (frameEnd c s).params = s.params ∧ (frameEnd c s).lastcmd = s.lastcmd ∧ (frameEnd c s).done = true ∧
    (frameEnd c s).cause = c ∧ (frameEnd c s).cmdlost = s.cmdlost ∧ (frameEnd c s).len = s.len ∧
    (frameEnd c s).ptr = s.ptr ∧ (frameEnd c s).cksum = s.cksum ∧ (frameEnd c s).disc = s.disc ∧
    (frameEnd c s).rxlen = s.rxlen ∧ (frameEnd c s).tmo = s.tmo ∧ (frameEnd c s).settle = s.settle ∧
    (frameEnd c s).elapsed = s.elapsed ∧ (frameEnd c s).phase = .idle ∧ (frameEnd c s).txidx = s.txidx ∧
    (frameEnd c s).txck = s.txck ∧ (frameEnd c s).setcnt = s.setcnt ∧ (frameEnd c s).rxst = .terminal ∧
    (frameEnd c s).rxcnt = s.rxcnt ∧ (frameEnd c s).discseen = s.discseen ∧ (frameEnd c s).buf = s.buf ∧
    (frameEnd c s).script = s.script ∧ (frameEnd c s).env = s.env ∧
    (frameEnd c s).validationError = s.validationError ∧ (frameEnd c s).edge = s.edge ∧
    (frameEnd c s).epoch = s.epoch ∧ (frameEnd c s).txLog = s.txLog ∧ (frameEnd c s).rxLog = s.rxLog ∧
    (frameEnd c s).rdLog = s.rdLog :=
  ⟨rfl, rfl, rfl, rfl, rfl, rfl, rfl, rfl, rfl, rfl, rfl, rfl, rfl, rfl, rfl, rfl, rfl, rfl, rfl, rfl, rfl, rfl, rfl, rfl, rfl, rfl, rfl, rfl, rfl⟩

@[simp] theorem nextCycle_fields (s : State) :
    (nextCycle s).params = s.params ∧ (nextCycle s).lastcmd = s.lastcmd ∧ (nextCycle s).done = s.done ∧
    (nextCycle s).cause = s.cause ∧ (nextCycle s).cmdlost = s.cmdlost ∧ (nextCycle s).len = s.len ∧
    (nextCycle s).ptr = s.ptr ∧ (nextCycle s).cksum = s.cksum ∧ (nextCycle s).disc = s.disc ∧
    (nextCycle s).rxlen = s.rxlen ∧ (nextCycle s).tmo = s.tmo ∧ (nextCycle s).settle = s.settle ∧
    (nextCycle s).elapsed = s.elapsed ∧ (nextCycle s).phase = s.phase ∧ (nextCycle s).txidx = s.txidx ∧
    (nextCycle s).txck = s.txck ∧ (nextCycle s).setcnt = s.setcnt ∧ (nextCycle s).rxst = s.rxst ∧
    (nextCycle s).rxcnt = s.rxcnt ∧ (nextCycle s).discseen = s.discseen ∧ (nextCycle s).buf = s.buf ∧
    (nextCycle s).script = scriptNext s ∧ (nextCycle s).env = s.env.tail ∧
    (nextCycle s).validationError = s.validationError ∧ (nextCycle s).edge = s.edge + 1 ∧
    (nextCycle s).epoch = s.epoch ∧ (nextCycle s).txLog = s.txLog ∧ (nextCycle s).rxLog = s.rxLog ∧
    (nextCycle s).rdLog = s.rdLog :=
  ⟨rfl, rfl, rfl, rfl, rfl, rfl, rfl, rfl, rfl, rfl, rfl, rfl, rfl, rfl, rfl, rfl, rfl, rfl, rfl, rfl, rfl, rfl, rfl, rfl, rfl, rfl, rfl, rfl, rfl⟩

end Sys2Proof.Machine
end

