-- ==== Sys2Proof/Laws/Exec.lean ====
section
/-! SUPPORT. What an instruction and the bus part of an edge can do, said once: the bus rows by their address (R42, R44),
the bus host's commands, and the bus part by the bus host's next item. -/

namespace Sys2Proof.Machine

/-- Every instruction answers a next state. -/
theorem exec_answers (i : Instr) (s : State) : ∃ t, exec i s = .next t := by
  cases i with
  | wrCmd d =>
    simp only [exec, execWrCmd]
    split
    · exact ⟨_, rfl⟩
    · split
      · exact ⟨_, rfl⟩
      · split
        · exact ⟨_, rfl⟩
        · split <;> exact ⟨_, rfl⟩
  | _ => exact ⟨_, rfl⟩

/-- bus_write(S, S', a, d) of R44, as the spec writes it. -/
def busWrite (a : Addr) (d : Byte) (s : State) : State :=
  if a = 0x01#5 then writeStatus d s
  else if a = 0x00#5 then
    if d = 0x00#8 then s
    else if d = 0x01#8 ∨ d = 0x03#8 then command d encodeStart s
    else if d = 0x02#8 then command d rxStart s
    else command d (complete .badCmd) s
  else whenIdle (fun s =>
    if a = 0x02#5 then { s with len := setHi s.len d }
    else if a = 0x03#5 then { s with len := setLo s.len d }
    else if a = 0x04#5 then { s with ptr := setHi s.ptr d }
    else if a = 0x05#5 then { s with ptr := setLo s.ptr d }
    else if a = 0x06#5 then dataPortWrite d s
    else if a = 0x0C#5 then { s with tmo := setHi s.tmo d }
    else if a = 0x0D#5 then { s with tmo := setLo s.tmo d }
    else if a = 0x0E#5 then { s with settle := setHi s.settle d }
    else if a = 0x0F#5 then { s with settle := setLo s.settle d }
    else s) s

/-- A property of an address holds if it holds of all 32. -/
theorem forall_addr {P : Addr → Prop} (h : ∀ n : Fin 32, P (BitVec.ofFin n)) (a : Addr) : P a := h a.toFin

/-- The write rows do what bus_write says at their address. -/
theorem exec_decodeWrite (a : Addr) (d : Byte) (s : State) : exec (decodeWrite a d) s = .next (busWrite a d s) := by
  revert a
  refine forall_addr fun n => ?_
  have idle (t : State) : whenIdle (fun s => s) t = t := by simp [whenIdle]
  have cmd : execWrCmd d s = .next (busWrite 0#5 d s) := by
    simp only [execWrCmd, busWrite]
    split_ifs <;> simp_all [execNop, execSend, execAwait, execIssue, reservedCommand]
  fin_cases n <;> first | exact cmd | rfl | (exact congrArg _ (idle s).symm)

/-- What a bus write does while idle, by its address and, at CMD, its code (R44, R46). -/
theorem busWrite_idle {s : State} (hp : s.phase = .idle) (a : Addr) (d : Byte) :
    (a = 0x01#5 ∧ busWrite a d s = writeStatus d s) ∨
    (a = 0x00#5 ∧ d = 0x00#8 ∧ busWrite a d s = s) ∨
    (a = 0x00#5 ∧ (d = 0x01#8 ∨ d = 0x03#8) ∧ busWrite a d s = encodeStart (accept d s)) ∨
    (a = 0x00#5 ∧ d = 0x02#8 ∧ busWrite a d s = rxStart (accept d s)) ∨
    (a = 0x00#5 ∧ (d ≠ 0x00#8 ∧ d ≠ 0x01#8 ∧ d ≠ 0x02#8 ∧ d ≠ 0x03#8) ∧
      busWrite a d s = complete .badCmd (accept d s)) ∨
    (a = 0x06#5 ∧ busWrite a d s = dataPortWrite d s) ∨
    ∃ len ptr tmo settle, busWrite a d s = { s with len := len, ptr := ptr, tmo := tmo, settle := settle } := by
  by_cases h1 : a = 0x01#5
  · exact .inl ⟨h1, by rw [busWrite, if_pos h1]⟩
  by_cases h0 : a = 0x00#5
  · by_cases d0 : d = 0x00#8
    · exact .inr (.inl ⟨h0, d0, by rw [busWrite, if_neg h1, if_pos h0, if_pos d0]⟩)
    by_cases d1 : d = 0x01#8 ∨ d = 0x03#8
    · exact .inr (.inr (.inl ⟨h0, d1, by
        rw [busWrite, if_neg h1, if_pos h0, if_neg d0, if_pos d1, command, if_pos hp]⟩))
    by_cases d2 : d = 0x02#8
    · exact .inr (.inr (.inr (.inl ⟨h0, d2, by
        rw [busWrite, if_neg h1, if_pos h0, if_neg d0, if_neg d1, if_pos d2, command, if_pos hp]⟩)))
    · exact .inr (.inr (.inr (.inr (.inl ⟨h0, ⟨d0, fun h => d1 (.inl h), d2, fun h => d1 (.inr h)⟩, by
        rw [busWrite, if_neg h1, if_pos h0, if_neg d0, if_neg d1, if_neg d2, command, if_pos hp]⟩))))
  by_cases h6 : a = 0x06#5
  · subst h6
    refine .inr (.inr (.inr (.inr (.inr (.inl ⟨rfl, ?_⟩)))))
    rw [busWrite, if_neg h1, if_neg h0, whenIdle, if_pos hp]
    rfl
  · refine .inr (.inr (.inr (.inr (.inr (.inr ?_)))))
    rw [busWrite, if_neg h1, if_neg h0, whenIdle, if_pos hp]
    split
    · exact ⟨_, _, _, _, rfl⟩
    split
    · exact ⟨_, _, _, _, rfl⟩
    split
    · exact ⟨_, _, _, _, rfl⟩
    split
    · exact ⟨_, _, _, _, rfl⟩
    split
    · exact ⟨_, _, _, _, rfl⟩
    split
    · exact ⟨_, _, _, _, rfl⟩
    split
    · exact ⟨_, _, _, _, rfl⟩
    split <;> exact ⟨_, _, _, _, rfl⟩

/-- The read rows return read(S, a); at DATA, PTR moves on while idle. -/
theorem exec_decodeRead (a : Addr) (s : State) :
    exec (decodeRead a) s =
      .next (if a = 0x06#5 then dataPortReadEffect (recordRead (readReg s a) s) else recordRead (readReg s a) s) := by
  revert a
  refine forall_addr fun n => ?_
  fin_cases n <;> rfl

/-- A payload of the catalogue runs as a command of the bus host. -/
theorem exec_decodePayload {p : List Byte} {i : Instr} (h : decodePayload p = .ok i) (s : State) :
    ∃ v q, exec i s = .next (hostCommand v q s) := by
  unfold decodePayload at h
  split at h <;> (try split at h) <;> (try split at h) <;> (try split at h) <;> (try split at h) <;>
    first
    | (cases h; exact ⟨_, _, rfl⟩)
    | cases h

/-- The word of a transaction decodes to the row of its address. -/
theorem decode_portsWord (p : BusPorts) :
    decode (.bus (portsWord p)) = .ok (if p.we then decodeWrite p.addr p.wdata else decodeRead p.addr) := by
  unfold portsWord
  cases h : p.we
  · simpa using decode_read p.addr
  · simpa using decode_write p.addr p.wdata

/-- What the bus part of an edge can do, by the bus host's next item: nothing, a read, a write, or a command. -/
theorem hostPart_cases {s t : State} (h : hostPart s = .next t) :
    (hostCode s = none ∧ t = nextCycle s) ∨
    (∃ p, busPorts s = some p ∧ p.we = false ∧
      t = if p.addr = 0x06#5 then dataPortReadEffect (recordRead (readReg (nextCycle s) p.addr) (nextCycle s))
        else recordRead (readReg (nextCycle s) p.addr) (nextCycle s)) ∨
    (∃ p, busPorts s = some p ∧ p.we = true ∧ t = busWrite p.addr p.wdata (nextCycle s)) ∨
    (∃ v q, t = hostCommand v q (nextCycle s)) := by
  unfold hostPart at h
  cases hc : hostCode s with
  | none => rw [hc] at h; cases h; exact .inl ⟨rfl, rfl⟩
  | some c =>
    rw [hc] at h
    have ports {p : BusPorts} (hp : busPorts s = some p) (hw : c = .bus (portsWord p)) :
        (p.we = false ∧
          t = if p.addr = 0x06#5 then dataPortReadEffect (recordRead (readReg (nextCycle s) p.addr) (nextCycle s))
            else recordRead (readReg (nextCycle s) p.addr) (nextCycle s)) ∨
        (p.we = true ∧ t = busWrite p.addr p.wdata (nextCycle s)) := by
      subst hw
      simp only [decode_portsWord] at h
      cases hwe : p.we
      · left; simp only [hwe, Bool.false_eq_true, if_false, exec_decodeRead] at h
        exact ⟨rfl, by injection h with h; exact h.symm⟩
      · right; simp only [hwe, if_true, exec_decodeWrite] at h
        exact ⟨rfl, by injection h with h; exact h.symm⟩
    have viaPorts (hm : (busPorts s).map (fun p => Code.bus (portsWord p)) = some c) :
        (∃ p, busPorts s = some p ∧ p.we = false ∧
          t = if p.addr = 0x06#5 then dataPortReadEffect (recordRead (readReg (nextCycle s) p.addr) (nextCycle s))
            else recordRead (readReg (nextCycle s) p.addr) (nextCycle s)) ∨
        (∃ p, busPorts s = some p ∧ p.we = true ∧ t = busWrite p.addr p.wdata (nextCycle s)) := by
      obtain ⟨p, hp, hw⟩ := Option.map_eq_some_iff.mp hm
      exact (ports hp hw.symm).imp (fun ⟨a, b⟩ => ⟨p, hp, a, b⟩) (fun ⟨a, b⟩ => ⟨p, hp, a, b⟩)
    unfold hostCode at hc
    split at hc
    · cases hc
      simp only [decode] at h
      split at h
      · obtain ⟨v, q, he⟩ := exec_decodePayload ‹_› (nextCycle s)
        rw [he] at h; injection h with h
        exact .inr (.inr (.inr ⟨v, q, h.symm⟩))
      · cases h
    · rcases viaPorts hc with h | h
      · exact .inr (.inl h)
      · exact .inr (.inr (.inl h))

/-- While an operation runs, the bus part of an edge can only clear DONE or CMDLOST, set CMDLOST, record a read or do
the bus host's own work (R45). -/
theorem hostPart_busy {s t : State} (hp : s.phase ≠ .idle) (h : hostPart s = .next t) :
    t = { nextCycle s with
      done := t.done, cmdlost := t.cmdlost, rdLog := t.rdLog, script := t.script
      validationError := t.validationError } ∧ (t.done = s.done ∨ t.done = false) := by
  have hp' : (nextCycle s).phase ≠ .idle := hp
  rcases hostPart_cases h with ⟨-, rfl⟩ | ⟨p, -, -, rfl⟩ | ⟨p, -, -, rfl⟩ | ⟨v, q, rfl⟩
  · exact ⟨rfl, .inl rfl⟩
  · split_ifs
    · simp only [dataPortReadEffect, whenIdle, recordRead_fields, if_neg hp']; exact ⟨rfl, .inl rfl⟩
    · exact ⟨rfl, .inl rfl⟩
  · simp only [busWrite, command, whenIdle, if_neg hp', writeStatus]
    split_ifs <;> first
      | exact ⟨rfl, .inl rfl⟩
      | exact ⟨rfl, .inr rfl⟩
  · unfold hostCommand; split_ifs <;> exact ⟨rfl, .inl rfl⟩

/-- The same, field by field: what the engine reads it finds as it stood before the edge. -/
theorem hostPart_busy_fields {s t : State} (hp : s.phase ≠ .idle) (h : hostPart s = .next t) :
    t.params = s.params ∧ t.lastcmd = s.lastcmd ∧ t.cause = s.cause ∧ t.len = s.len ∧ t.ptr = s.ptr ∧
    t.cksum = s.cksum ∧ t.disc = s.disc ∧ t.rxlen = s.rxlen ∧ t.tmo = s.tmo ∧ t.settle = s.settle ∧
    t.elapsed = s.elapsed ∧ t.phase = s.phase ∧ t.txidx = s.txidx ∧ t.txck = s.txck ∧ t.setcnt = s.setcnt ∧
    t.rxst = s.rxst ∧ t.rxcnt = s.rxcnt ∧ t.discseen = s.discseen ∧ t.buf = s.buf ∧ t.epoch = s.epoch ∧
    t.edge = s.edge + 1 ∧ t.env = s.env.tail ∧ t.txLog = s.txLog ∧ t.rxLog = s.rxLog ∧
    (t.done = s.done ∨ t.done = false) := by
  obtain ⟨h, hd⟩ := hostPart_busy hp h
  rw [h] at hd ⊢
  exact ⟨rfl, rfl, rfl, rfl, rfl, rfl, rfl, rfl, rfl, rfl, rfl, rfl, rfl, rfl, rfl, rfl, rfl, rfl, rfl, rfl, rfl, rfl, rfl, rfl,
    hd⟩

end Sys2Proof.Machine
end

