-- ==== Sys2Proof/Laws/Memory.lean ====
section
/-! SUPPORT. The laws of BUF's list of written cells and of the buffer's reads and writes. -/

namespace Sys2Proof.Machine

@[simp] theorem Memory.read_write_same (m : Memory) (a : Nat) (v : Byte) :
    Memory.read (Memory.write m a v) a = some v := by
  induction m with
  | nil => simp [Memory.write, Memory.read]
  | cons c m ih =>
    obtain ⟨b, w⟩ := c
    unfold Memory.write
    split
    · simp [Memory.read]
    · split
      · simp [Memory.read]
      · simp [Memory.read, *]

theorem Memory.read_write_other (m : Memory) (a b : Nat) (v : Byte) (h : b ≠ a) :
    Memory.read (Memory.write m a v) b = Memory.read m b := by
  induction m with
  | nil => simp [Memory.write, Memory.read, h]
  | cons c m ih =>
    obtain ⟨k, w⟩ := c
    unfold Memory.write
    split
    · simp [Memory.read, h]
    · split
      · subst_vars; simp [Memory.read, h]
      · simp [Memory.read, ih]

/-- The indices of a written list: the new one and the old ones. -/
theorem Memory.mem_write {m : Memory} {a : Nat} {v : Byte} {c : Host.Cell} (h : c ∈ Memory.write m a v) :
    c = (a, v) ∨ c ∈ m := by
  induction m with
  | nil => simpa [Memory.write] using h
  | cons d m ih =>
    obtain ⟨k, w⟩ := d
    unfold Memory.write at h
    split at h
    · simpa using h
    · split at h
      · rcases List.mem_cons.mp h with h | h
        · exact .inl h
        · exact .inr (List.mem_cons_of_mem _ h)
      · rcases List.mem_cons.mp h with h | h
        · exact .inr (h ▸ List.mem_cons_self)
        · exact (ih h).imp id (List.mem_cons_of_mem _)

/-- A write keeps the canonical form. -/
theorem Memory.write_wf {m : Memory} (h : Memory.wf m) (a : Nat) (v : Byte) : Memory.wf (Memory.write m a v) := by
  induction m with
  | nil => simp [Memory.write, Memory.wf]
  | cons c m ih =>
    obtain ⟨k, w⟩ := c
    obtain ⟨hk, hm⟩ := List.pairwise_cons.mp h
    unfold Memory.write
    split
    · refine List.pairwise_cons.mpr ⟨fun c hc => ?_, h⟩
      rcases List.mem_cons.mp hc with rfl | hc
      · assumption
      · exact lt_trans ‹_› (hk c hc)
    · split
      · subst_vars; exact List.pairwise_cons.mpr ⟨hk, hm⟩
      · refine List.pairwise_cons.mpr ⟨fun c hc => ?_, ih hm⟩
        rcases Memory.mem_write hc with rfl | hc
        · show k < a; omega
        · exact hk c hc

/-- The empty list, which every reset leaves, is canonical. -/
theorem Memory.nil_wf : Memory.wf [] := List.Pairwise.nil

/-- A buffer write is read back there and nowhere else. -/
theorem bufRead_bufWrite (s : State) (i j : Nat) (v : Byte) :
    bufRead (bufWrite i v s) j = if j = i then v else bufRead s j := by
  unfold bufRead bufWrite
  split_ifs with h
  · subst h; simp
  · simp [Memory.read_write_other _ _ _ _ h]

/-- Two states with the same cells and epoch read the same. -/
theorem bufRead_congr {s t : State} (hb : t.buf = s.buf) (he : t.epoch = s.epoch) (j : Nat) :
    bufRead t j = bufRead s j := by
  simp [bufRead, hb, he]

/-- Two states with the same length, cells and epoch hold the same payload. -/
theorem payload_congr {s t : State} (hl : t.len = s.len) (hb : t.buf = s.buf) (he : t.epoch = s.epoch) :
    payload t = payload s := by
  simp only [payload, hl]
  exact List.map_congr_left (fun j _ => bufRead_congr hb he j)

@[simp] theorem payload_length (s : State) : (payload s).length = s.len.toNat := by simp [payload]

end Sys2Proof.Machine
end

