-- ==== Sys2Proof/Laws/Ops.lean ====
section
/-! SUPPORT. What each shared operation does, said once, by the condition it tests; and the frame's own laws. -/

namespace Sys2Proof.Machine

/-! ### Acceptance (R45, R46) -/

theorem command_idle {s : State} (h : s.phase = .idle) (c : Byte) (start : State → State) :
    command c start s = start (accept c s) := if_pos h

theorem command_busy {s : State} (h : s.phase ≠ .idle) (c : Byte) (start : State → State) :
    command c start s = commandLost s := if_neg h

theorem whenIdle_idle {s : State} (h : s.phase = .idle) (f : State → State) : whenIdle f s = f s := if_pos h

theorem whenIdle_busy {s : State} (h : s.phase ≠ .idle) (f : State → State) : whenIdle f s = s := if_neg h

/-! ### encode_start (R75) -/

theorem encodeStart_fits {s : State} (h : s.len.toNat + 7 ≤ s.params.cap) :
    encodeStart s = { s with phase := .tx, txidx := 0#17, txck := 0x00#8 } := by
  rw [encodeStart, if_neg]
  simpa [overflows] using h

theorem encodeStart_overflows {s : State} (h : s.params.cap < s.len.toNat + 7) :
    encodeStart s = complete .overflow s := by
  rw [encodeStart, if_pos]
  simpa [overflows] using h

/-! ### The DATA port (R49, R50) -/

/-- What a DATA write leaves in every cell. -/
theorem bufRead_dataPortWrite (d : Byte) (s : State) (j : Nat) :
    bufRead (dataPortWrite d s) j = if j = s.ptr.toNat ∧ s.ptr.toNat < pcap s then d else bufRead s j := by
  have keep (t : State) : bufRead (advancePtr t) j = bufRead t j := bufRead_congr rfl rfl j
  rw [dataPortWrite, keep]
  by_cases h : s.ptr.toNat < pcap s
  · rw [if_pos h, bufRead_bufWrite]
    simp [h]
  · simp [h]

/-! ### The bus host's commands (R103) -/

theorem hostCommand_valid (p : List Byte) (s : State) :
    hostCommand true p s = { s with script := issueScript p ++ s.script, validationError := false } := rfl

theorem hostCommand_invalid (p : List Byte) (s : State) :
    hostCommand false p s = { s with validationError := true } := rfl

/-! ### The frame (R61, R71) -/

/-- The fold takes the bytes in the order they go out. -/
theorem xorfold_snoc (p : List Byte) (b : Byte) : xorfold (p ++ [b]) = xorfold p ^^^ b := by
  induction p with
  | nil => simp [xorfold]
  | cons a p ih => simp [xorfold, ih, BitVec.xor_assoc]

theorem frameOf_length (p : List Byte) : (frameOf p).length = p.length + 7 := by simp [frameOf]

end Sys2Proof.Machine
end

