-- ==== Sys2Proof/Laws/PerInstr.lean ====
section
/-! SUPPORT. The family Encoding of LAWS.json, one lemma a constructor: the encoder puts each instruction in its row's
format, and a payload has at least 2 and at most 15 bytes (R106 to R116), so it fits the BUF of the default block
(PCAP = 25, R6). -/

namespace Sys2Proof.Laws.Encoding

/-- The word of i stands in the place of i's format; if it is a payload, its length is one of the catalogue's. -/
def Statement (i : Instr) : Prop :=
  (encode i).format = i.format ∧ ∀ p, encode i = .payload p → p.length ∈ [2, 3, 5, 9, 12, 15]

/-- A word that is no payload has only its place to state. -/
theorem of_format {i : Instr} (h : (encode i).format = i.format) (hp : i.format ≠ .payloadId) : Statement i :=
  ⟨h, fun p hc => absurd (by rw [← h, hc]; rfl) hp⟩

/-- A payload of a length of the catalogue. -/
theorem of_payload {i : Instr} {p : List Byte} (he : encode i = .payload p) (hf : i.format = .payloadId)
    (hl : p.length ∈ [2, 3, 5, 9, 12, 15]) : Statement i :=
  ⟨by rw [he, hf]; rfl, fun q hq => by rw [he] at hq; cases hq; exact hl⟩

theorem nop : Statement (.nop) := of_format rfl nofun

theorem send : Statement (.send) := of_format rfl nofun

theorem await : Statement (.await) := of_format rfl nofun

theorem issue : Statement (.issue) := of_format rfl nofun

theorem reserved0407 (k : BitVec 2) : Statement (.reserved0407 k) := of_format rfl nofun

theorem reserved080F (k : BitVec 3) : Statement (.reserved080F k) := of_format rfl nofun

theorem reserved101F (k : BitVec 4) : Statement (.reserved101F k) := of_format rfl nofun

theorem reserved203F (k : BitVec 5) : Statement (.reserved203F k) := of_format rfl nofun

theorem reserved407F (k : BitVec 6) : Statement (.reserved407F k) := of_format rfl nofun

theorem reserved80FF (k : BitVec 7) : Statement (.reserved80FF k) := of_format rfl nofun

theorem rdCmd : Statement (.rdCmd) := of_format rfl nofun

theorem wrCmd (d : Byte) : Statement (.wrCmd d) := of_format rfl nofun

theorem rdStatus : Statement (.rdStatus) := of_format rfl nofun

theorem wrStatus (d : Byte) : Statement (.wrStatus d) := of_format rfl nofun

theorem rdLenHi : Statement (.rdLenHi) := of_format rfl nofun

theorem wrLenHi (d : Byte) : Statement (.wrLenHi d) := of_format rfl nofun

theorem rdLenLo : Statement (.rdLenLo) := of_format rfl nofun

theorem wrLenLo (d : Byte) : Statement (.wrLenLo d) := of_format rfl nofun

theorem rdPtrHi : Statement (.rdPtrHi) := of_format rfl nofun

theorem wrPtrHi (d : Byte) : Statement (.wrPtrHi d) := of_format rfl nofun

theorem rdPtrLo : Statement (.rdPtrLo) := of_format rfl nofun

theorem wrPtrLo (d : Byte) : Statement (.wrPtrLo d) := of_format rfl nofun

theorem rdData : Statement (.rdData) := of_format rfl nofun

theorem wrData (d : Byte) : Statement (.wrData d) := of_format rfl nofun

theorem rdCksum : Statement (.rdCksum) := of_format rfl nofun

theorem wrCksum (d : Byte) : Statement (.wrCksum d) := of_format rfl nofun

theorem rdDisc : Statement (.rdDisc) := of_format rfl nofun

theorem wrDisc (d : Byte) : Statement (.wrDisc d) := of_format rfl nofun

theorem rdState : Statement (.rdState) := of_format rfl nofun

theorem wrState (d : Byte) : Statement (.wrState d) := of_format rfl nofun

theorem rdRxlenHi : Statement (.rdRxlenHi) := of_format rfl nofun

theorem wrRxlenHi (d : Byte) : Statement (.wrRxlenHi d) := of_format rfl nofun

theorem rdRxlenLo : Statement (.rdRxlenLo) := of_format rfl nofun

theorem wrRxlenLo (d : Byte) : Statement (.wrRxlenLo d) := of_format rfl nofun

theorem rdTmoHi : Statement (.rdTmoHi) := of_format rfl nofun

theorem wrTmoHi (d : Byte) : Statement (.wrTmoHi d) := of_format rfl nofun

theorem rdTmoLo : Statement (.rdTmoLo) := of_format rfl nofun

theorem wrTmoLo (d : Byte) : Statement (.wrTmoLo d) := of_format rfl nofun

theorem rdSettleHi : Statement (.rdSettleHi) := of_format rfl nofun

theorem wrSettleHi (d : Byte) : Statement (.wrSettleHi d) := of_format rfl nofun

theorem rdSettleLo : Statement (.rdSettleLo) := of_format rfl nofun

theorem wrSettleLo (d : Byte) : Statement (.wrSettleLo d) := of_format rfl nofun

theorem rdElapsedHi : Statement (.rdElapsedHi) := of_format rfl nofun

theorem wrElapsedHi (d : Byte) : Statement (.wrElapsedHi d) := of_format rfl nofun

theorem rdElapsedLo : Statement (.rdElapsedLo) := of_format rfl nofun

theorem wrElapsedLo (d : Byte) : Statement (.wrElapsedLo d) := of_format rfl nofun

theorem rdPcapHi : Statement (.rdPcapHi) := of_format rfl nofun

theorem wrPcapHi (d : Byte) : Statement (.wrPcapHi d) := of_format rfl nofun

theorem rdPcapLo : Statement (.rdPcapLo) := of_format rfl nofun

theorem wrPcapLo (d : Byte) : Statement (.wrPcapLo d) := of_format rfl nofun

theorem rdRsv1417 (a : BitVec 2) : Statement (.rdRsv1417 a) := of_format rfl nofun

theorem wrRsv1417 (a : BitVec 2) (d : Byte) : Statement (.wrRsv1417 a d) := of_format rfl nofun

theorem rdRsv181F (a : BitVec 3) : Statement (.rdRsv181F a) := of_format rfl nofun

theorem wrRsv181F (a : BitVec 3) (d : Byte) : Statement (.wrRsv181F a d) := of_format rfl nofun

theorem ack : Statement (.ack) := of_format rfl nofun

theorem nack : Statement (.nack) := of_format rfl nofun

theorem unrecognized (d : Byte) : Statement (.unrecognized d) := of_format rfl nofun

theorem setConstellation (bitmask attr : Byte) : Statement (.setConstellation bitmask attr) :=
  of_payload rfl rfl (by simp [bytesSetConstellation])

theorem configureSbas (enable ranging rangingURA correction trackingChannels subsystemMask attr : Byte) :
    Statement (.configureSbas enable ranging rangingURA correction trackingChannels subsystemMask attr) :=
  of_payload rfl rfl (by simp [bytesConfigureSbas])

theorem configureQzss (enable channels attr : Byte) : Statement (.configureQzss enable channels attr) :=
  of_payload rfl rfl (by simp [bytesConfigureQzss])

theorem systemRestart (mode : Byte) (year : Half) (month day hour minute second : Byte) (lat lon alt : Half) :
    Statement (.systemRestart mode year month day hour minute second lat lon alt) :=
  of_payload rfl rfl (by simp [bytesSystemRestart])

theorem factoryDefault : Statement (.factoryDefault) :=
  of_payload rfl rfl (by simp [bytesFactoryDefault])

theorem powerMode (mode attr : Byte) : Statement (.powerMode mode attr) :=
  of_payload rfl rfl (by simp [bytesPowerMode])

theorem positionRate (rate attr : Byte) : Statement (.positionRate rate attr) :=
  of_payload rfl rfl (by simp [bytesPositionRate])

theorem positionPinningParams (pinSpeed pinCount unpinSpeed unpinCount unpinDistance : Half) (attr : Byte) :
    Statement (.positionPinningParams pinSpeed pinCount unpinSpeed unpinCount unpinDistance attr) :=
  of_payload rfl rfl (by simp [bytesPositionPinningParams])

theorem positionPinning (mode attr : Byte) : Statement (.positionPinning mode attr) :=
  of_payload rfl rfl (by simp [bytesPositionPinning])

theorem dopMask (mode : Byte) (pdop hdop gdop : Half) (attr : Byte) : Statement (.dopMask mode pdop hdop gdop attr) :=
  of_payload rfl rfl (by simp [bytesDopMask])

theorem nmeaTalkerId (id attr : Byte) : Statement (.nmeaTalkerId id attr) :=
  of_payload rfl rfl (by simp [bytesNmeaTalkerId])

end Sys2Proof.Laws.Encoding
end

