-- ==== Sys2Proof/Laws/Step.lean ====
section
/-! SUPPORT. What an edge can do, said once: the reset edge, the two parts of any other edge, and each engine step. -/

namespace Sys2Proof.Machine

/-- An edge with `rst` = 1 is the reset edge. -/
theorem step_reset {s : State} (h : (envNow s).rst = true) : step s = .next (resetEdge s) := by simp [step, h]

/-- Any other edge is the bus part and then the engine. -/
theorem step_of_hostPart {s t : State} (h : (envNow s).rst = false) (ht : hostPart s = .next t) :
    step s = engine s t (envNow s) := by
  simp [step, h, ht]

/-- What an edge that has a next state did. -/
theorem step_cases {s t : State} (h : step s = .next t) :
    ((envNow s).rst = true ∧ t = resetEdge s) ∨
    ((envNow s).rst = false ∧ ∃ m, hostPart s = .next m ∧ engine s m (envNow s) = .next t) := by
  unfold step at h
  cases hr : (envNow s).rst
  · refine .inr ⟨rfl, ?_⟩
    rw [if_neg (by simp [hr])] at h
    split at h
    · exact ⟨_, ‹_›, h⟩
    · cases h
    · cases h
  · rw [if_pos hr] at h
    cases h
    exact .inl ⟨rfl, rfl⟩

/-- No edge. -/
@[simp] theorem run_zero (s : State) : run 0 s = .next s := rfl

/-- One edge, then the others. -/
theorem run_succ {k : Nat} {s t : State} (h : step s = .next t) : run (k + 1) s = run k t := by
  have h' : Sys2Proof.core.step s = .next t := h
  simp only [run, Host.Core.run, h']
  rfl

/-- The other edges first, then one. -/
theorem run_last {k : Nat} {s u t : State} (h : run k s = .next u) (hu : step u = .next t) : run (k + 1) s = .next t := by
  induction k generalizing s with
  | zero => cases h; exact run_succ hu
  | succ k ih =>
    cases hs : step s with
    | next s' => rw [run_succ hs] at h ⊢; exact ih h
    | fault f =>
      have hs' : Sys2Proof.core.step s = .fault f := hs
      simp [run, Host.Core.run, hs'] at h
    | refused r =>
      have hs' : Sys2Proof.core.step s = .refused r := hs
      simp [run, Host.Core.run, hs'] at h

/-- With an empty script the bus part only uses up the edge's inputs. -/
theorem hostPart_empty {s : State} (h : s.script = []) : hostPart s = .next (nextCycle s) := by
  simp [hostPart, hostCode, busPorts, h]

/-- The inputs of an edge whose list is not at its end. -/
theorem envNow_cons {s : State} {e : EnvInput} {later : List EnvInput} (h : s.env = e :: later) : envNow s = e := by
  simp [envNow, h]

/-- The block's registers after the reset edge are those of `State.resetWith`; the environment's fields stay or move on. -/
theorem resetEdge_eq (s : State) :
    resetEdge s = { State.resetWith s.params with
      script := scriptHeld s, env := s.env.tail, validationError := s.validationError, edge := s.edge + 1
      epoch := s.epoch + 1, txLog := s.txLog, rxLog := s.rxLog, rdLog := (resetEdge s).rdLog } := by
  unfold resetEdge
  split
  · split_ifs <;> rfl
  · rfl

/-- At the frame's end the discriminator d completes the receive with the cause it selects. -/
theorem exec_decodeDisc (d : Byte) (s : State) : exec (decodeDisc d) s = .next (frameEnd (causeOf d) s) := by
  unfold decodeDisc causeOf
  split_ifs <;> rfl

/-! ### Transmit -/

/-- A transmit edge that has a next state: it held, or it transferred the byte of the frame at TXIDX. -/
theorem txStep_cases {s m t : State} {r : Bool} (h : txStep s m r = .next t) :
    (r = false ∧ t = m) ∨
    (r = true ∧ ∃ b, frameByte s s.txidx.toNat = .ok b ∧ t = txTransfer s (recordTx b m) b) := by
  unfold txStep at h
  cases r
  · cases h; exact .inl ⟨rfl, rfl⟩
  · refine .inr ⟨rfl, ?_⟩
    simp only [if_true] at h
    split at h
    · cases h; exact ⟨_, ‹_›, rfl⟩
    · cases h

/-- The transfer of any byte but the last. -/
theorem txTransfer_other {s m : State} {b : Byte} (h : s.txidx.toNat ≠ 6 + s.len.toNat) :
    txTransfer s m b = { m with
      txidx := s.txidx + 1#17
      txck := if 4 ≤ s.txidx.toNat ∧ s.txidx.toNat < 4 + s.len.toNat then s.txck ^^^ b else m.txck
      cksum := if s.txidx.toNat = 4 + s.len.toNat then b else m.cksum } := by
  simp only [txTransfer]
  rw [if_neg h]
  split_ifs <;> rfl

/-- The transfer of the last byte. -/
theorem txTransfer_last {s m : State} {b : Byte} (h : s.txidx.toNat = 6 + s.len.toNat) :
    txTransfer s m b = if s.lastcmd = 0x01#8 then complete .success m else settleStart m := by
  have h1 : ¬ (4 ≤ s.txidx.toNat ∧ s.txidx.toNat < 4 + s.len.toNat) := by omega
  have h2 : ¬ s.txidx.toNat = 4 + s.len.toNat := by omega
  simp only [txTransfer, if_neg h1, if_neg h2, if_pos h]

/-- In the frame and in BUF, the encoder has a byte to offer. -/
theorem frameByte_ok {s : State} {i : Nat} (hi : i ≤ s.len.toNat + 6) (hl : s.len.toNat ≤ pcap s) :
    ∃ b, frameByte s i = .ok b := by
  simp only [frameByte]
  split_ifs <;> first | exact ⟨_, rfl⟩ | omega

/-! ### Receive -/

/-- A receive edge that has a next state: the deadline, no byte, or a byte taken by the decoder. -/
theorem rxStep_cases {s m t : State} {rx : Option Byte} {k : Bool} (h : rxStep s m rx k = .next t) :
    (s.tmo.toNat ≤ s.elapsed.toNat ∧ t = complete .timeout m) ∨
    (s.elapsed.toNat < s.tmo.toNat ∧ rx = none ∧ t = countTick s m k) ∨
    (s.elapsed.toNat < s.tmo.toNat ∧ ∃ b, rx = some b ∧ delta s (recordRx b (countTick s m k)) b = .next t) := by
  unfold rxStep at h
  split at h
  · cases h; exact .inl ⟨‹_›, rfl⟩
  · have : s.elapsed.toNat < s.tmo.toNat := by omega
    split at h
    · cases h; exact .inr (.inl ⟨this, rfl, rfl⟩)
    · exact .inr (.inr ⟨this, _, rfl, h⟩)

/-- The tick of a receive edge, field by field. -/
theorem countTick_eq (S S' : State) (k : Bool) :
    countTick S S' k = { S' with elapsed := if k then S.elapsed + 1#16 else S'.elapsed } := by
  cases k <;> rfl

/-- A receive edge before the deadline that is offered a byte: the tick is counted and the decoder takes the byte. -/
theorem step_takesByte {s t : State} {b : Byte} (hr : (envNow s).rst = false) (hp : s.phase = .rx)
    (hd : s.elapsed.toNat < s.tmo.toNat) (ht : hostPart s = .next t) (hb : (envNow s).rx = some b) :
    step s = delta s { t with
      elapsed := if (envNow s).tick then s.elapsed + 1#16 else t.elapsed, rxLog := t.rxLog ++ [b] } b := by
  rw [step_of_hostPart hr ht]
  simp only [engine, hp, rxStep, if_neg (show ¬ s.tmo.toNat ≤ s.elapsed.toNat by omega), hb, countTick_eq]
  rfl

/-- The counter after a byte in state Payload (R93). -/
def payloadCount (S : State) : Wide :=
  if S.discseen = false ∧ S.params.plCountFirst = false then S.rxcnt else S.rxcnt + 1#17

/-- A byte in state Payload, field by field. -/
theorem payloadByte_eq (S S' : State) (b : Byte) :
    payloadByte S S' b = { S' with
      disc := if S.discseen = false then b else S'.disc
      discseen := if S.discseen = false then true else S'.discseen
      rxcnt := payloadCount S
      rxst := if S.rxlen.toNat + 1 ≤ (payloadCount S).toNat then .waitTrailer else S'.rxst } := by
  have hc : (if (!S.discseen) && !S.params.plCountFirst then S.rxcnt else S.rxcnt + 1#17) = payloadCount S := by
    unfold payloadCount
    cases S.discseen <;> cases S.params.plCountFirst <;> rfl
  unfold payloadByte
  simp only [hc]
  by_cases h : S.rxlen.toNat + 1 ≤ (payloadCount S).toNat
  · rw [if_pos h, if_pos h]; cases S.discseen <;> rfl
  · rw [if_neg h, if_neg h]; cases S.discseen <;> rfl

/-- The decoder takes a byte in every state but Terminal. -/
theorem delta_answers {s m : State} {b : Byte} (h : s.rxst ≠ .terminal) : ∃ t, delta s m b = .next t := by
  unfold delta
  split <;> try exact ⟨_, rfl⟩
  · split
    · exact ⟨_, exec_decodeDisc _ _⟩
    · exact ⟨_, rfl⟩
  · contradiction

/-! ### The engine as a whole -/

/-- With PHASE = IDLE before the edge the engine part is empty (R43). -/
theorem engine_idle {s : State} (h : s.phase = .idle) (m : State) (e : EnvInput) : engine s m e = .next m := by
  simp [engine, h]

/-- What the engine never writes: the parameters, what the bus host owns, BUF, the environment and the records of reads. -/
theorem engine_frame {s m t : State} {e : EnvInput} (h : engine s m e = .next t) :
    t = { m with
      done := t.done, cause := t.cause, cksum := t.cksum, disc := t.disc, rxlen := t.rxlen, elapsed := t.elapsed
      phase := t.phase, txidx := t.txidx, txck := t.txck, setcnt := t.setcnt, rxst := t.rxst, rxcnt := t.rxcnt
      discseen := t.discseen, txLog := t.txLog, rxLog := t.rxLog } := by
  unfold engine at h
  cases hp : s.phase <;> rw [hp] at h <;> simp only at h
  · cases h; rfl
  · rcases txStep_cases h with ⟨-, rfl⟩ | ⟨-, b, -, rfl⟩
    · rfl
    · by_cases hl : s.txidx.toNat = 6 + s.len.toNat
      · rw [txTransfer_last hl]
        by_cases hc : s.lastcmd = 0x01#8
        · rw [if_pos hc]; rfl
        · rw [if_neg hc]; rfl
      · rw [txTransfer_other hl]; rfl
  · cases h
    unfold settleStep
    by_cases h1 : s.settle.toNat ≤ s.setcnt.toNat
    · rw [if_pos h1]; rfl
    · rw [if_neg h1]; cases e.tick <;> rfl
  · rcases rxStep_cases h with ⟨-, rfl⟩ | ⟨-, -, rfl⟩ | ⟨-, b, -, hd⟩
    · rfl
    · rw [countTick_eq]
    · rw [countTick_eq] at hd
      unfold delta at hd
      cases hr : s.rxst <;> rw [hr] at hd <;> simp only at hd
      · cases hd; by_cases hb : b = sync1
        · rw [if_pos hb]; rfl
        · rw [if_neg hb]; rfl
      · cases hd; by_cases hb : b = sync2
        · rw [if_pos hb]; rfl
        · rw [if_neg hb]; rfl
      · cases hd; rfl
      · cases hd; rfl
      · cases hd; rw [payloadByte_eq]; rfl
      · by_cases hb : b = end2
        · rw [if_pos hb, exec_decodeDisc] at hd; cases hd; rfl
        · rw [if_neg hb] at hd; cases hd; rfl
      · cases hd

/-- An engine part that ends an operation completes it: DONE is set, whatever the bus part did to it (R133). -/
theorem engine_done {s m t : State} {e : EnvInput} (hs : s.phase ≠ .idle) (hm : m.phase = s.phase)
    (h : engine s m e = .next t) (ht : t.phase = .idle) : t.done = true := by
  have hm' : m.phase ≠ .idle := hm ▸ hs
  unfold engine at h
  cases hp : s.phase <;> rw [hp] at h <;> simp only at h
  · exact absurd hp hs
  · rcases txStep_cases h with ⟨-, rfl⟩ | ⟨-, b, -, rfl⟩
    · exact absurd ht hm'
    · by_cases hl : s.txidx.toNat = 6 + s.len.toNat
      · rw [txTransfer_last hl] at ht ⊢
        by_cases hc : s.lastcmd = 0x01#8
        · rw [if_pos hc]; rfl
        · rw [if_neg hc] at ht; exact absurd ht (show Phase.settle ≠ .idle by decide)
      · rw [txTransfer_other hl] at ht; exact absurd ht hm'
  · cases h
    revert ht
    unfold settleStep
    by_cases h1 : s.settle.toNat ≤ s.setcnt.toNat
    · rw [if_pos h1]; exact fun ht => absurd ht (show Phase.rx ≠ .idle by decide)
    · rw [if_neg h1]; cases e.tick <;> exact fun ht => absurd ht hm'
  · rcases rxStep_cases h with ⟨-, rfl⟩ | ⟨-, -, rfl⟩ | ⟨-, b, -, hd⟩
    · rfl
    · rw [countTick_eq] at ht; exact absurd ht hm'
    · rw [countTick_eq] at hd
      unfold delta at hd
      cases hr : s.rxst <;> rw [hr] at hd <;> simp only at hd
      · cases hd; by_cases hb : b = sync1
        · rw [if_pos hb] at ht; exact absurd ht hm'
        · rw [if_neg hb] at ht; exact absurd ht hm'
      · cases hd; by_cases hb : b = sync2
        · rw [if_pos hb] at ht; exact absurd ht hm'
        · rw [if_neg hb] at ht; exact absurd ht hm'
      · cases hd; exact absurd ht hm'
      · cases hd; exact absurd ht hm'
      · cases hd; rw [payloadByte_eq] at ht; exact absurd ht hm'
      · by_cases hb : b = end2
        · rw [if_pos hb, exec_decodeDisc] at hd; cases hd; rfl
        · rw [if_neg hb] at hd; cases hd; exact absurd ht hm'
      · cases hd

end Sys2Proof.Machine
end

