-- ==== Sys2Proof/Tests/Slice0.lean ====
section
/-! SUPPORT. The model's own tests: one decoding a constructor, single edges from spec/95_test_vectors, and for every
obligation with hypotheses a state that meets them. Expected values are the spec's. -/

namespace Sys2Proof.Tests

open Sys2Proof.Machine

/-! ### Helpers -/

/-- A next state with the property f. -/
def onNext (o : Host.Outcome State Fault Refusal) (f : State → Bool) : Bool :=
  match o with
  | .next t => f t
  | .fault _ => false
  | .refused _ => false

/-- What onNext says. -/
theorem exists_next {o : Host.Outcome State Fault Refusal} (h : onNext o (fun _ => true) = true) : ∃ t, o = .next t := by
  cases o with
  | next t => exact ⟨t, rfl⟩
  | fault f => cases h
  | refused r => cases h

/-- An edge at which the TX port is ready. -/
def ready : EnvInput := { rst := false, tick := false, txReady := true, rx := none }

/-- An edge with `rst` = 1. -/
def resetting : EnvInput := { rst := true, tick := true, txReady := true, rx := some 0x83#8 }

/-- Idle after reset, with one edge's inputs. -/
def idleWith (e : EnvInput) : State := { State.reset with env := [e] }

/-- A command c sending the one-byte payload 0x0A (T-ENC-6), with i bytes transferred. -/
def sending (c : Byte) (i : Nat) (e : EnvInput) : State :=
  { State.reset with
    lastcmd := c, len := 1#16, buf := [(0, 0x0A#8)], phase := .tx, txidx := BitVec.ofNat 17 i
    txck := if 5 ≤ i then 0x0A#8 else 0x00#8, cksum := if 6 ≤ i then 0x0A#8 else 0x00#8
    txLog := [0xA0#8, 0xA1#8, 0x00#8, 0x01#8, 0x0A#8, 0x0A#8, 0x0D#8, 0x0A#8].take i, env := [e] }

/-- The block settling in an ISSUE, with SETTLE = n and SETCNT = k. -/
def settling (n k : Half) (e : EnvInput) : State :=
  { State.reset with lastcmd := 0x03#8, phase := .settle, settle := n, setcnt := k, env := [e] }

/-- An AWAIT in decoder state r, with TMO = 9. -/
def receiving (r : RxState) (e : EnvInput) : State :=
  { State.reset with lastcmd := 0x02#8, phase := .rx, tmo := 9#16, rxst := r, env := [e] }

/-- The receive of T-RX-1 before its last byte, with discriminator d. -/
def trailing (d : Byte) (e : EnvInput) : State :=
  { receiving .waitTrailer e with disc := d, discseen := true, rxlen := 2#16, rxcnt := 3#17 }

/-! ### Well-formedness: the one check refuses the two values another row has (R95) -/

theorem test_wellFormed_refuses_ack_value : (Instr.unrecognized 0x83#8).wellFormed = false := by decide

theorem test_wellFormed_refuses_nack_value : (Instr.unrecognized 0x84#8).wellFormed = false := by decide

theorem test_wellFormed_accepts_neighbours :
    (Instr.unrecognized 0x82#8).wellFormed = true ∧ (Instr.unrecognized 0x85#8).wellFormed = true := by decide

/-! ### Decoding: a word of every row, written out from R64, R69, R95 and the payload tables -/

/-- R64, R65. -/
theorem test_decode_cmd :
    decode (.cmd 0x00#8) = .ok .nop ∧
    decode (.cmd 0x01#8) = .ok .send ∧
    decode (.cmd 0x02#8) = .ok .await ∧
    decode (.cmd 0x03#8) = .ok .issue ∧
    decode (.cmd 0x06#8) = .ok (.reserved0407 2#2) ∧
    decode (.cmd 0x0B#8) = .ok (.reserved080F 3#3) ∧
    decode (.cmd 0x1E#8) = .ok (.reserved101F 14#4) ∧
    decode (.cmd 0x35#8) = .ok (.reserved203F 21#5) ∧
    decode (.cmd 0x41#8) = .ok (.reserved407F 1#6) ∧
    decode (.cmd 0xFF#8) = .ok (.reserved80FF 127#7) := by decide

/-- R69: bit 13 write, bits 12 to 8 the address, bits 7 to 0 the data. -/
theorem test_decode_bus_a :
    decode (.bus 0x0000#14) = .ok .rdCmd ∧
    decode (.bus 0x20E0#14) = .ok (.wrCmd 0xE0#8) ∧
    decode (.bus 0x0100#14) = .ok .rdStatus ∧
    decode (.bus 0x21E7#14) = .ok (.wrStatus 0xE7#8) ∧
    decode (.bus 0x0200#14) = .ok .rdLenHi ∧
    decode (.bus 0x22EE#14) = .ok (.wrLenHi 0xEE#8) ∧
    decode (.bus 0x0300#14) = .ok .rdLenLo ∧
    decode (.bus 0x23F5#14) = .ok (.wrLenLo 0xF5#8) ∧
    decode (.bus 0x0400#14) = .ok .rdPtrHi ∧
    decode (.bus 0x24FC#14) = .ok (.wrPtrHi 0xFC#8) ∧
    decode (.bus 0x0500#14) = .ok .rdPtrLo ∧
    decode (.bus 0x2503#14) = .ok (.wrPtrLo 0x03#8) ∧
    decode (.bus 0x0600#14) = .ok .rdData ∧
    decode (.bus 0x260A#14) = .ok (.wrData 0x0A#8) ∧
    decode (.bus 0x0700#14) = .ok .rdCksum := by decide

/-- R69: bit 13 write, bits 12 to 8 the address, bits 7 to 0 the data. -/
theorem test_decode_bus_b :
    decode (.bus 0x2711#14) = .ok (.wrCksum 0x11#8) ∧
    decode (.bus 0x0800#14) = .ok .rdDisc ∧
    decode (.bus 0x2818#14) = .ok (.wrDisc 0x18#8) ∧
    decode (.bus 0x0900#14) = .ok .rdState ∧
    decode (.bus 0x291F#14) = .ok (.wrState 0x1F#8) ∧
    decode (.bus 0x0A00#14) = .ok .rdRxlenHi ∧
    decode (.bus 0x2A26#14) = .ok (.wrRxlenHi 0x26#8) ∧
    decode (.bus 0x0B00#14) = .ok .rdRxlenLo ∧
    decode (.bus 0x2B2D#14) = .ok (.wrRxlenLo 0x2D#8) ∧
    decode (.bus 0x0C00#14) = .ok .rdTmoHi ∧
    decode (.bus 0x2C34#14) = .ok (.wrTmoHi 0x34#8) ∧
    decode (.bus 0x0D00#14) = .ok .rdTmoLo ∧
    decode (.bus 0x2D3B#14) = .ok (.wrTmoLo 0x3B#8) ∧
    decode (.bus 0x0E00#14) = .ok .rdSettleHi ∧
    decode (.bus 0x2E42#14) = .ok (.wrSettleHi 0x42#8) := by decide

/-- R69: bit 13 write, bits 12 to 8 the address, bits 7 to 0 the data. -/
theorem test_decode_bus_c :
    decode (.bus 0x0F00#14) = .ok .rdSettleLo ∧
    decode (.bus 0x2F49#14) = .ok (.wrSettleLo 0x49#8) ∧
    decode (.bus 0x1000#14) = .ok .rdElapsedHi ∧
    decode (.bus 0x3050#14) = .ok (.wrElapsedHi 0x50#8) ∧
    decode (.bus 0x1100#14) = .ok .rdElapsedLo ∧
    decode (.bus 0x3157#14) = .ok (.wrElapsedLo 0x57#8) ∧
    decode (.bus 0x1200#14) = .ok .rdPcapHi ∧
    decode (.bus 0x325E#14) = .ok (.wrPcapHi 0x5E#8) ∧
    decode (.bus 0x1300#14) = .ok .rdPcapLo ∧
    decode (.bus 0x3365#14) = .ok (.wrPcapLo 0x65#8) ∧
    decode (.bus 0x1600#14) = .ok (.rdRsv1417 2#2) ∧
    decode (.bus 0x3755#14) = .ok (.wrRsv1417 3#2 0x55#8) ∧
    decode (.bus 0x1900#14) = .ok (.rdRsv181F 1#3) ∧
    decode (.bus 0x3FAA#14) = .ok (.wrRsv181F 7#3 0xAA#8) := by decide

/-- R95. -/
theorem test_decode_disc :
    decode (.disc 0x83#8) = .ok .ack ∧
    decode (.disc 0x84#8) = .ok .nack ∧
    decode (.disc 0x00#8) = .ok (.unrecognized 0x00#8) ∧
    decode (.disc 0xFF#8) = .ok (.unrecognized 0xFF#8) := by decide

/-- R106 to R110; 16-bit fields high byte first (R102). -/
theorem test_decode_payload_a :
    decode (.payload [0x64#8, 0x19#8, 0x00#8, 0x05#8, 0x01#8]) = .ok (.setConstellation 0x05#8 0x01#8) ∧
    decode (.payload [0x62#8, 0x01#8, 0x01#8, 0x02#8, 0x0F#8, 0x00#8, 0x03#8, 0x7F#8, 0x01#8]) =
      .ok (.configureSbas 0x01#8 0x02#8 0x0F#8 0x00#8 0x03#8 0x7F#8 0x01#8) ∧
    decode (.payload [0x62#8, 0x03#8, 0x01#8, 0x02#8, 0x00#8]) = .ok (.configureQzss 0x01#8 0x02#8 0x00#8) ∧
    decode (.payload [0x01#8, 0x02#8, 0x07#8, 0xE8#8, 0x03#8, 0x04#8, 0x05#8, 0x06#8, 0x07#8, 0xFF#8, 0xFE#8, 0x12#8, 0x34#8,
      0x00#8, 0x0A#8]) =
      .ok (.systemRestart 0x02#8 2024#16 0x03#8 0x04#8 0x05#8 0x06#8 0x07#8 0xFFFE#16 0x1234#16 10#16) ∧
    decode (.payload [0x04#8, 0x01#8]) = .ok .factoryDefault := by decide

/-- R111 to R116. -/
theorem test_decode_payload_b :
    decode (.payload [0x0C#8, 0x01#8, 0x00#8]) = .ok (.powerMode 0x01#8 0x00#8) ∧
    decode (.payload [0x0E#8, 0x05#8, 0x01#8]) = .ok (.positionRate 0x05#8 0x01#8) ∧
    decode (.payload [0x3B#8, 0x00#8, 0x01#8, 0x02#8, 0x03#8, 0x04#8, 0x05#8, 0x06#8, 0x07#8, 0x08#8, 0x09#8, 0xAA#8]) =
      .ok (.positionPinningParams 0x0001#16 0x0203#16 0x0405#16 0x0607#16 0x0809#16 0xAA#8) ∧
    decode (.payload [0x39#8, 0x02#8, 0x01#8]) = .ok (.positionPinning 0x02#8 0x01#8) ∧
    decode (.payload [0x2A#8, 0x04#8, 0x01#8, 0x2C#8, 0x00#8, 0x05#8, 0x00#8, 0xC8#8, 0x01#8]) =
      .ok (.dopMask 0x04#8 300#16 5#16 200#16 0x01#8) ∧
    decode (.payload [0x4B#8, 0x02#8, 0x01#8]) = .ok (.nmeaTalkerId 0x02#8 0x01#8) := by decide

/-- Words of no row (R69, R106, R110). -/
theorem test_decode_rejects :
    decode (.bus 0x0101#14) = .error .readWithData ∧
    decode (.payload [0x64#8, 0x19#8, 0x01#8, 0x05#8, 0x01#8]) = .error .reservedByteNotZero ∧
    decode (.payload [0x04#8, 0x02#8]) = .error .unknownPayload ∧
    decode (.payload []) = .error .noPayloadOfThisLength := by decide

/-! ### The words as the table numbers them (log 6) -/

/-- The row each match value of opcode_table.json names. -/
theorem test_tableWord_a :
    decodeTableWord 8 0x00 = some .nop ∧
    decodeTableWord 8 0x01 = some .send ∧
    decodeTableWord 8 0x02 = some .await ∧
    decodeTableWord 8 0x03 = some .issue ∧
    decodeTableWord 8 0x04 = some (.reserved0407 0#2) ∧
    decodeTableWord 8 0x08 = some (.reserved080F 0#3) ∧
    decodeTableWord 8 0x10 = some (.reserved101F 0#4) ∧
    decodeTableWord 8 0x20 = some (.reserved203F 0#5) ∧
    decodeTableWord 8 0x40 = some (.reserved407F 0#6) ∧
    decodeTableWord 8 0x80 = some (.reserved80FF 0#7) ∧
    decodeTableWord 16 0x0000 = some .rdCmd ∧
    decodeTableWord 16 0x2000 = some (.wrCmd 0#8) ∧
    decodeTableWord 16 0x0100 = some .rdStatus ∧
    decodeTableWord 16 0x2100 = some (.wrStatus 0#8) ∧
    decodeTableWord 16 0x0200 = some .rdLenHi ∧
    decodeTableWord 16 0x2200 = some (.wrLenHi 0#8) ∧
    decodeTableWord 16 0x0300 = some .rdLenLo := by decide

/-- The row each match value of opcode_table.json names. -/
theorem test_tableWord_b :
    decodeTableWord 16 0x2300 = some (.wrLenLo 0#8) ∧
    decodeTableWord 16 0x0400 = some .rdPtrHi ∧
    decodeTableWord 16 0x2400 = some (.wrPtrHi 0#8) ∧
    decodeTableWord 16 0x0500 = some .rdPtrLo ∧
    decodeTableWord 16 0x2500 = some (.wrPtrLo 0#8) ∧
    decodeTableWord 16 0x0600 = some .rdData ∧
    decodeTableWord 16 0x2600 = some (.wrData 0#8) ∧
    decodeTableWord 16 0x0700 = some .rdCksum ∧
    decodeTableWord 16 0x2700 = some (.wrCksum 0#8) ∧
    decodeTableWord 16 0x0800 = some .rdDisc ∧
    decodeTableWord 16 0x2800 = some (.wrDisc 0#8) ∧
    decodeTableWord 16 0x0900 = some .rdState ∧
    decodeTableWord 16 0x2900 = some (.wrState 0#8) ∧
    decodeTableWord 16 0x0A00 = some .rdRxlenHi ∧
    decodeTableWord 16 0x2A00 = some (.wrRxlenHi 0#8) ∧
    decodeTableWord 16 0x0B00 = some .rdRxlenLo ∧
    decodeTableWord 16 0x2B00 = some (.wrRxlenLo 0#8) := by decide

/-- The row each match value of opcode_table.json names. -/
theorem test_tableWord_c :
    decodeTableWord 16 0x0C00 = some .rdTmoHi ∧
    decodeTableWord 16 0x2C00 = some (.wrTmoHi 0#8) ∧
    decodeTableWord 16 0x0D00 = some .rdTmoLo ∧
    decodeTableWord 16 0x2D00 = some (.wrTmoLo 0#8) ∧
    decodeTableWord 16 0x0E00 = some .rdSettleHi ∧
    decodeTableWord 16 0x2E00 = some (.wrSettleHi 0#8) ∧
    decodeTableWord 16 0x0F00 = some .rdSettleLo ∧
    decodeTableWord 16 0x2F00 = some (.wrSettleLo 0#8) ∧
    decodeTableWord 16 0x1000 = some .rdElapsedHi ∧
    decodeTableWord 16 0x3000 = some (.wrElapsedHi 0#8) ∧
    decodeTableWord 16 0x1100 = some .rdElapsedLo ∧
    decodeTableWord 16 0x3100 = some (.wrElapsedLo 0#8) ∧
    decodeTableWord 16 0x1200 = some .rdPcapHi ∧
    decodeTableWord 16 0x3200 = some (.wrPcapHi 0#8) ∧
    decodeTableWord 16 0x1300 = some .rdPcapLo ∧
    decodeTableWord 16 0x3300 = some (.wrPcapLo 0#8) ∧
    decodeTableWord 16 0x1400 = some (.rdRsv1417 0#2) := by decide

/-- The row each match value names; SYSTEM_RESTART has the match value of SEND (log 6). -/
theorem test_tableWord_d :
    decodeTableWord 16 0x3400 = some (.wrRsv1417 0#2 0#8) ∧
    decodeTableWord 16 0x1800 = some (.rdRsv181F 0#3) ∧
    decodeTableWord 16 0x3800 = some (.wrRsv181F 0#3 0#8) ∧
    decodeTableWord 8 0x83 = some .ack ∧
    decodeTableWord 8 0x84 = some .nack ∧
    decodeTableWord 0 0x00 = some (.unrecognized 0#8) ∧
    decodeTableWord 16 0x6419 = some (.setConstellation 0#8 0#8) ∧
    decodeTableWord 16 0x6201 = some (.configureSbas 0#8 0#8 0#8 0#8 0#8 0#8 0#8) ∧
    decodeTableWord 16 0x6203 = some (.configureQzss 0#8 0#8 0#8) ∧
    decodeTableWord 16 0x0401 = some .factoryDefault ∧
    decodeTableWord 8 0x0C = some (.powerMode 0#8 0#8) ∧
    decodeTableWord 8 0x0E = some (.positionRate 0#8 0#8) ∧
    decodeTableWord 8 0x3B = some (.positionPinningParams 0#16 0#16 0#16 0#16 0#16 0#8) ∧
    decodeTableWord 8 0x39 = some (.positionPinning 0#8 0#8) ∧
    decodeTableWord 8 0x2A = some (.dopMask 0#8 0#16 0#16 0#16 0#8) ∧
    decodeTableWord 8 0x4B = some (.nmeaTalkerId 0#8 0#8) := by decide

/-- A placed word is what the next step runs: a bus word, a command code, a discriminator and a payload (log 7). -/
theorem test_withFetchWord :
    onNext (step (State.reset.withFetchWord 16 0x2002)) (fun t => decide (t.phase = .rx ∧ t.lastcmd = 0x02#8)) = true ∧
    onNext (step (State.reset.withFetchWord 8 0x03)) (fun t => decide (t.phase = .tx ∧ t.lastcmd = 0x03#8)) = true ∧
    onNext (step (State.reset.withFetchWord 8 0x84)) (fun t => decide (statusByte t = 0x0A#8 ∧ t.rxst = .terminal)) = true ∧
    onNext (step (State.reset.withFetchWord 16 0x0401))
      (fun t => decide (t.script = issueScript [0x04#8, 0x01#8])) = true := by decide

/-! ### Commands -/

/-- T-BUS-7: NOP after a completed SEND leaves STATUS = 0x06 and LASTCMD = 0x01. -/
theorem test_nop_idle :
    onNext (exec .nop { State.reset with lastcmd := 0x01#8, done := true })
      (fun t => decide (statusByte t = 0x06#8 ∧ t.lastcmd = 0x01#8)) = true := by decide

/-- T-BUS-12: SEND accepted after a NACK gives STATUS = 0x01. -/
theorem test_send_clears_result :
    onNext (exec .send { State.reset with lastcmd := 0x02#8, done := true, cause := .nack })
      (fun t => decide (statusByte t = 0x01#8 ∧ stateByte t = 0x08#8 ∧ t.lastcmd = 0x01#8)) = true := by decide

/-- T-ENC-8, T-ENC-9: LEN = 26 and LEN = 0xFFFF overflow at once; LEN = 25 does not. -/
theorem test_send_overflow :
    onNext (exec .send { State.reset with len := 26#16 }) (fun t => decide (statusByte t = 0x22#8)) = true ∧
    onNext (exec .send { State.reset with len := 0xFFFF#16 }) (fun t => decide (statusByte t = 0x22#8)) = true ∧
    onNext (exec .send { State.reset with len := 25#16 }) (fun t => decide (statusByte t = 0x01#8)) = true := by decide

/-- T-RX-20: AWAIT starts a fresh decoder. -/
theorem test_await_fresh :
    onNext (exec .await { trailing 0x83#8 quiet with phase := .idle, elapsed := 8#16, done := true, cause := .timeout })
      (fun t => decide (stateByte t = 0x18#8 ∧ t.disc = 0x00#8 ∧ t.rxlen = 0#16 ∧ t.rxcnt = 0#17 ∧ t.elapsed = 0#16
        ∧ statusByte t = 0x01#8)) = true := by decide

/-- T-ISS-3: ISSUE with LEN = 26 overflows. -/
theorem test_issue_overflow :
    onNext (exec .issue { State.reset with len := 26#16 })
      (fun t => decide (statusByte t = 0x22#8 ∧ t.lastcmd = 0x03#8 ∧ t.phase = .idle)) = true := by decide

/-- T-BUS-6, P4: a reserved code completes at once with STATUS = 0x2A and is kept in LASTCMD. -/
theorem test_reserved_codes :
    onNext (exec (.reserved0407 0#2) State.reset) (fun t => decide (statusByte t = 0x2A#8 ∧ t.lastcmd = 0x04#8)) = true ∧
    onNext (exec (.reserved080F 3#3) State.reset) (fun t => decide (statusByte t = 0x2A#8 ∧ t.lastcmd = 0x0B#8)) = true ∧
    onNext (exec (.reserved101F 3#4) State.reset) (fun t => decide (statusByte t = 0x2A#8 ∧ t.lastcmd = 0x13#8)) = true ∧
    onNext (exec (.reserved203F 3#5) State.reset) (fun t => decide (statusByte t = 0x2A#8 ∧ t.lastcmd = 0x23#8)) = true ∧
    onNext (exec (.reserved407F 3#6) State.reset) (fun t => decide (statusByte t = 0x2A#8 ∧ t.lastcmd = 0x43#8)) = true ∧
    onNext (exec (.reserved80FF 127#7) State.reset) (fun t => decide (statusByte t = 0x2A#8 ∧ t.lastcmd = 0xFF#8)) = true := by
  decide

/-- T-BUS-3, T-BUS-4: while busy a command sets CMDLOST and NOP does not; LASTCMD stays. -/
theorem test_wrCmd_busy :
    onNext (exec (.wrCmd 0x02#8) (sending 0x01#8 2 quiet))
      (fun t => decide (statusByte t = 0x41#8 ∧ t.lastcmd = 0x01#8)) = true ∧
    onNext (exec (.wrCmd 0x00#8) (sending 0x01#8 2 quiet)) (fun t => decide (statusByte t = 0x01#8)) = true := by decide

/-- P4: `WR CMD, 0x07` gives STATUS = 0x2A and LASTCMD = 0x07. -/
theorem test_wrCmd_idle :
    onNext (exec (.wrCmd 0x07#8) State.reset) (fun t => decide (statusByte t = 0x2A#8 ∧ t.lastcmd = 0x07#8)) = true := by
  decide

/-! ### Reads: T-BUS-1, the reset values address by address -/

theorem test_reads_at_reset :
    ([.rdCmd, .rdStatus, .rdLenHi, .rdLenLo, .rdPtrHi, .rdPtrLo, .rdCksum, .rdDisc, .rdState, .rdRxlenHi, .rdRxlenLo,
      .rdElapsedHi, .rdElapsedLo, .rdPcapHi, .rdSettleHi, .rdRsv1417 0#2, .rdRsv1417 3#2, .rdRsv181F 0#3,
      .rdRsv181F 7#3].all fun i => onNext (exec i State.reset) (fun t => decide (t.rdLog = [0x00#8]))) = true := by decide

theorem test_reads_of_parameters_at_reset :
    onNext (exec .rdTmoHi State.reset) (fun t => decide (t.rdLog = [0x13#8])) = true ∧
    onNext (exec .rdTmoLo State.reset) (fun t => decide (t.rdLog = [0x88#8])) = true ∧
    onNext (exec .rdSettleLo State.reset) (fun t => decide (t.rdLog = [0x64#8])) = true ∧
    onNext (exec .rdPcapLo State.reset) (fun t => decide (t.rdLog = [0x19#8])) = true := by decide

/-- T-BUS-11: the STATE byte after byte 3 of T-RX-1 is 0x1B, in a settle 0x10. -/
theorem test_rdState :
    onNext (exec .rdState (receiving .lenLow quiet)) (fun t => decide (t.rdLog = [0x1B#8])) = true ∧
    onNext (exec .rdState (settling 2#16 0#16 quiet)) (fun t => decide (t.rdLog = [0x10#8])) = true := by decide

/-- T-MEM-1, T-MEM-2, T-MEM-4: a read of DATA in the buffer, past it, and while busy. -/
theorem test_rdData :
    onNext (exec .rdData { State.reset with buf := [(0, 0x0C#8), (1, 0x01#8)] })
      (fun t => decide (t.rdLog = [0x0C#8] ∧ t.ptr = 1#16)) = true ∧
    onNext (exec .rdData { State.reset with ptr := 26#16 }) (fun t => decide (t.rdLog = [0x00#8] ∧ t.ptr = 27#16)) = true ∧
    onNext (exec .rdData (sending 0x01#8 2 quiet)) (fun t => decide (t.rdLog = [0x00#8] ∧ t.ptr = 0#16)) = true := by
  decide

/-! ### Writes -/

/-- T-MEM-1, T-MEM-2: a DATA write in the buffer and past it. -/
theorem test_wrData :
    onNext (exec (.wrData 0x01#8) { State.reset with ptr := 1#16, buf := [(0, 0x0C#8)] })
      (fun t => decide (t.buf = [(0, 0x0C#8), (1, 0x01#8)] ∧ t.ptr = 2#16)) = true ∧
    onNext (exec (.wrData 0x55#8) { State.reset with ptr := 25#16 })
      (fun t => decide (t.buf = [] ∧ t.ptr = 26#16 ∧ statusByte t = 0x00#8)) = true := by decide

/-- T-MEM-3, T-MEM-4: PTR wraps; while busy nothing moves. -/
theorem test_wrData_edges :
    onNext (exec (.wrData 0x55#8) { State.reset with ptr := 0xFFFF#16 })
      (fun t => decide (t.buf = [] ∧ t.ptr = 0#16)) = true ∧
    onNext (exec (.wrData 0xEE#8) (sending 0x01#8 4 quiet))
      (fun t => decide (t.buf = [(0, 0x0A#8)] ∧ t.ptr = 0#16)) = true := by decide

/-- T-BUS-2: STATUS bits 1 and 6 clear, the others ignore writes. -/
theorem test_wrStatus :
    onNext (exec (.wrStatus 0x02#8) { State.reset with done := true, cause := .nack })
      (fun t => decide (statusByte t = 0x08#8)) = true ∧
    onNext (exec (.wrStatus 0x40#8) { State.reset with done := true, cmdlost := true })
      (fun t => decide (statusByte t = 0x06#8)) = true := by decide

/-- P1 to P3 and R51: the halves of LEN, PTR, TMO and SETTLE. -/
theorem test_parameter_writes :
    onNext (exec (.wrLenHi 0x01#8) { State.reset with len := 0x0002#16 }) (fun t => decide (t.len = 0x0102#16)) = true ∧
    onNext (exec (.wrLenLo 0x03#8) State.reset) (fun t => decide (t.len = 0x0003#16)) = true ∧
    onNext (exec (.wrPtrHi 0x01#8) State.reset) (fun t => decide (t.ptr = 0x0100#16)) = true ∧
    onNext (exec (.wrPtrLo 0x10#8) State.reset) (fun t => decide (t.ptr = 0x0010#16)) = true ∧
    onNext (exec (.wrTmoHi 0x00#8) State.reset) (fun t => decide (t.tmo = 0x0088#16)) = true ∧
    onNext (exec (.wrTmoLo 0x64#8) State.reset) (fun t => decide (t.tmo = 0x1364#16)) = true ∧
    onNext (exec (.wrSettleHi 0x01#8) State.reset) (fun t => decide (t.settle = 0x0164#16)) = true ∧
    onNext (exec (.wrSettleLo 0x02#8) State.reset) (fun t => decide (t.settle = 0x0002#16)) = true := by decide

/-- T-BUS-5: the same writes while busy are ignored. -/
theorem test_parameter_writes_busy :
    ([.wrLenHi 5#8, .wrLenLo 5#8, .wrPtrHi 5#8, .wrPtrLo 16#8, .wrTmoHi 5#8, .wrTmoLo 5#8, .wrSettleHi 5#8,
      .wrSettleLo 5#8].all fun i => onNext (exec i (sending 0x01#8 3 quiet))
        (fun t => decide (t = sending 0x01#8 3 quiet))) = true := by decide

/-- T-BUS-10: writes to read-only and reserved addresses are ignored. -/
theorem test_ignored_writes :
    ([.wrCksum 0x55#8, .wrDisc 0x55#8, .wrState 0x55#8, .wrRxlenHi 0x55#8, .wrRxlenLo 0x55#8, .wrElapsedHi 0x55#8,
      .wrElapsedLo 0x55#8, .wrPcapHi 0x55#8, .wrPcapLo 0x00#8, .wrRsv1417 0#2 0x55#8, .wrRsv181F 7#3 0x55#8].all
      fun i => onNext (exec i State.reset) (fun t => decide (t = State.reset))) = true := by decide

/-! ### Discriminators -/

/-- T-RX-1, T-RX-2, T-RX-3: the byte END2 completes the receive by the discriminator; STATE then reads 0x06. -/
theorem test_discriminators :
    onNext (step (trailing 0x83#8 (offers 0x0A#8))) (fun t => decide (statusByte t = 0x06#8 ∧ stateByte t = 0x06#8)) = true ∧
    onNext (step (trailing 0x84#8 (offers 0x0A#8))) (fun t => decide (statusByte t = 0x0A#8 ∧ stateByte t = 0x06#8)) = true ∧
    onNext (step (trailing 0x85#8 (offers 0x0A#8))) (fun t => decide (statusByte t = 0x12#8 ∧ stateByte t = 0x06#8)) = true := by
  decide

/-! ### The bus host's commands -/

/-- L1-3: rangingURA = 15 is issued, 16 is a ValidationError. -/
theorem test_configureSbas_boundary :
    onNext (exec (.configureSbas 0x01#8 0x00#8 0x0F#8 0x00#8 0x00#8 0x00#8 0x00#8) State.reset)
      (fun t => decide (t.script =
        issueScript [0x62#8, 0x01#8, 0x01#8, 0x00#8, 0x0F#8, 0x00#8, 0x00#8, 0x00#8, 0x00#8])) = true ∧
    onNext (exec (.configureSbas 0x01#8 0x00#8 0x10#8 0x00#8 0x00#8 0x00#8 0x00#8) State.reset)
      (fun t => decide (t.script = [] ∧ t.validationError = true)) = true := by decide

/-- P2: Factory default is issued by the words 0x2400, 0x2500, 0x2604, 0x2601, 0x2200, 0x2302 and 0x2003. -/
theorem test_factoryDefault_words :
    onNext (exec .factoryDefault State.reset) (fun t => decide (t.script.filterMap (fun op =>
      match op with
      | .bus p => some (portsWord p)
      | _ => none) = [0x2400#14, 0x2500#14, 0x2604#14, 0x2601#14, 0x2200#14, 0x2302#14, 0x2003#14, 0x0100#14])) = true := by
  decide

/-- R108, R111, R114, R115, R116: one past each range is a ValidationError. -/
theorem test_ranges :
    ([.configureQzss 2#8 0#8 0#8, .configureQzss 0#8 4#8 0#8, .powerMode 2#8 0#8, .positionPinning 3#8 0#8,
      .dopMask 5#8 5#16 5#16 5#16 0#8, .dopMask 0#8 4#16 5#16 5#16 0#8, .dopMask 0#8 5#16 301#16 5#16 0#8,
      .dopMask 0#8 5#16 5#16 4#16 0#8, .nmeaTalkerId 3#8 0#8].all
      fun i => onNext (exec i State.reset) (fun t => decide (t.script = [] ∧ t.validationError = true))) = true := by decide

/-- R106, R109, R112, R113: any value is accepted. -/
theorem test_no_ranges :
    ([.setConstellation 0xFF#8 0xFF#8,
      .systemRestart 0xFF#8 0xFFFF#16 0xFF#8 0xFF#8 0xFF#8 0xFF#8 0xFF#8 0xFFFF#16 0xFFFF#16 0xFFFF#16,
      .positionRate 0xFF#8 0xFF#8, .positionPinningParams 0xFFFF#16 0xFFFF#16 0xFFFF#16 0xFFFF#16 0xFFFF#16 0xFF#8].all
      fun i => onNext (exec i State.reset) (fun t => decide (t.script.length > 7 ∧ t.validationError = false))) = true := by
  decide

/-! ### The engine, one edge a test -/

/-- T-ENC-1 to T-ENC-6 and T-ENC-10: whole frames. -/
theorem test_frames :
    frameOf [] = [0xA0#8, 0xA1#8, 0x00#8, 0x00#8, 0x00#8, 0x0D#8, 0x0A#8] ∧
    frameOf [0x0C#8, 0x01#8, 0x00#8] =
      [0xA0#8, 0xA1#8, 0x00#8, 0x03#8, 0x0C#8, 0x01#8, 0x00#8, 0x0D#8, 0x0D#8, 0x0A#8] ∧
    frameOf [0xFF#8, 0xFF#8] = [0xA0#8, 0xA1#8, 0x00#8, 0x02#8, 0xFF#8, 0xFF#8, 0x00#8, 0x0D#8, 0x0A#8] ∧
    frameOf [0x12#8, 0x34#8, 0x56#8] =
      [0xA0#8, 0xA1#8, 0x00#8, 0x03#8, 0x12#8, 0x34#8, 0x56#8, 0x70#8, 0x0D#8, 0x0A#8] := by decide

/-- L1-2, T-ENC-15: the reference parse checks the checksum. -/
theorem test_parse :
    parseFrame [0xA0#8, 0xA1#8, 0x00#8, 0x01#8, 0x0A#8, 0x0A#8, 0x0D#8, 0x0A#8] = some [0x0A#8] ∧
    parseFrame [0xA0#8, 0xA1#8, 0x00#8, 0x02#8, 0x83#8, 0x00#8, 0x81#8, 0x0D#8, 0x0A#8] = none := by decide

/-- T-ENC-6: the payload byte is folded into TXCK; the checksum byte then goes to CKSUM. -/
theorem test_transfer :
    onNext (step (sending 0x01#8 4 ready)) (fun t => decide (t.txck = 0x0A#8 ∧ t.txidx = 5#17 ∧ t.cksum = 0x00#8)) = true ∧
    onNext (step (sending 0x01#8 5 ready)) (fun t => decide (t.cksum = 0x0A#8 ∧ t.txidx = 6#17)) = true := by decide

/-- T-ENC-6, T-ISS-1: the last byte completes a SEND and starts the settle of an ISSUE. -/
theorem test_last_transfer :
    onNext (step (sending 0x01#8 7 ready)) (fun t => decide (statusByte t = 0x06#8 ∧ t.txidx = 7#17
      ∧ t.txLog = [0xA0#8, 0xA1#8, 0x00#8, 0x01#8, 0x0A#8, 0x0A#8, 0x0D#8, 0x0A#8])) = true ∧
    onNext (step (sending 0x03#8 7 ready)) (fun t => decide (statusByte t = 0x01#8 ∧ t.phase = .settle)) = true := by decide

/-- T-ENC-11: a stall keeps the byte. -/
theorem test_stall :
    txData (sending 0x01#8 2 quiet) = 0x00#8 ∧ txValid (sending 0x01#8 2 quiet) = true ∧
    onNext (step (sending 0x01#8 2 quiet)) (fun t => decide (t.txidx = 2#17 ∧ t.txLog.length = 2)) = true := by decide

/-- T-BUS-8, T-BUS-9: at the completing edge DONE is set over a clear, and a command is lost. -/
theorem test_completing_edge :
    onNext (step { sending 0x01#8 7 ready with script := [wr addrStatus 0x02#8] })
      (fun t => decide (statusByte t = 0x06#8)) = true ∧
    onNext (step { sending 0x01#8 7 ready with script := [wr addrCmd 0x01#8] })
      (fun t => decide (statusByte t = 0x46#8 ∧ t.lastcmd = 0x01#8)) = true := by decide

/-- T-ISS-1, T-ISS-2: a settle of 0 takes one edge; a tick counts before the end. -/
theorem test_settle :
    onNext (step (settling 0#16 0#16 quiet)) (fun t => decide (stateByte t = 0x18#8)) = true ∧
    onNext (step (settling 2#16 1#16 ticks)) (fun t => decide (t.phase = .settle ∧ t.setcnt = 2#16)) = true := by decide

/-- T-RX-6, T-RX-7: after A0, a 55 or another A0 goes back to WaitSync1. -/
theorem test_resync :
    onNext (step (receiving .waitSync2 (offers 0x55#8))) (fun t => decide (t.rxst = .waitSync1 ∧ t.rxLog = [0x55#8])) = true ∧
    onNext (step (receiving .waitSync2 (offers 0xA0#8))) (fun t => decide (t.rxst = .waitSync1)) = true := by decide

/-- T-RX-14: the second of two payload bytes, under the two readings of PL_COUNT_FIRST. -/
theorem test_count_first :
    onNext (step { receiving .payload (offers 0x83#8) with disc := 0x83#8, discseen := true, rxlen := 1#16, rxcnt := 1#17 })
      (fun t => decide (t.rxcnt = 2#17 ∧ t.rxst = .waitTrailer)) = true ∧
    onNext (step { receiving .payload (offers 0x83#8) with
        params := { Config.Params.default with plCountFirst := false }, rxlen := 1#16 })
      (fun t => decide (t.rxcnt = 0#17 ∧ t.disc = 0x83#8 ∧ t.rxst = .payload)) = true := by decide

/-- T-RX-18, T-RX-19: the byte at ELAPSED = 8 counts with TMO = 9; with TMO = 8 the receive times out and the byte stays. -/
theorem test_deadline :
    onNext (step { trailing 0x83#8 { offers 0x0A#8 with tick := true } with elapsed := 8#16 })
      (fun t => decide (statusByte t = 0x06#8 ∧ t.elapsed = 9#16)) = true ∧
    onNext (step { trailing 0x83#8 { offers 0x0A#8 with tick := true } with tmo := 8#16, elapsed := 8#16 })
      (fun t => decide (statusByte t = 0x1A#8 ∧ stateByte t = 0x05#8 ∧ t.elapsed = 8#16 ∧ t.rxLog = [])) = true := by decide

/-- T-RST-1: reset in a transmit. -/
theorem test_reset_edge :
    onNext (step (sending 0x01#8 3 resetting)) (fun t => decide (statusByte t = 0x00#8 ∧ stateByte t = 0x00#8 ∧ t.len = 0#16
      ∧ t.txLog = [0xA0#8, 0xA1#8, 0x00#8] ∧ t.lastcmd = 0x00#8 ∧ t.buf = [])) = true := by decide

/-! ### Witnesses: states that meet the hypotheses of the obligations -/

theorem witness_DecodeInvertsEncode : (Instr.unrecognized 0x85#8).wellFormed = true := by decide

theorem witness_EncodeInvertsDecode : decode (.bus 0x3FAA#14) = .ok (.wrRsv181F 7#3 0xAA#8) := by decide

/-- Idle with one bus item, and with none; the last clause with a bus item and with a tick and a byte offered. -/
theorem witness_StepRunsDecodedInstruction :
    (∃ t, (envNow { idleWith quiet with script := [wr addrCmd 0x02#8] }).rst = false ∧
      hostCode { idleWith quiet with script := [wr addrCmd 0x02#8] } = some (.bus 0x2002#14) ∧
      decode (.bus 0x2002#14) = .ok (.wrCmd 0x02#8) ∧
      exec (.wrCmd 0x02#8) (nextCycle { idleWith quiet with script := [wr addrCmd 0x02#8] }) = .next t) ∧
    ((envNow (idleWith quiet)).rst = false ∧ hostCode (idleWith quiet) = none) ∧
    ∃ t, (envNow { idleWith { offers 0xA0#8 with tick := true, txReady := true } with
        script := [wr addrCmd 0x04#8] }).rst = false ∧
      ({ idleWith { offers 0xA0#8 with tick := true, txReady := true } with
        script := [wr addrCmd 0x04#8] } : State).phase = .idle ∧
      hostPart { idleWith { offers 0xA0#8 with tick := true, txReady := true } with
        script := [wr addrCmd 0x04#8] } = .next t :=
  ⟨⟨_, by decide, by decide, by decide, rfl⟩, ⟨by decide, by decide⟩, _, by decide, by decide, rfl⟩

/-- P4, R43: the edge that accepts the reserved code 0x07 leaves STATUS = 0x2A, whatever the other ports bring. -/
theorem test_idle_edge :
    onNext (step { idleWith { offers 0xA0#8 with tick := true, txReady := true } with
        script := [wr addrCmd 0x07#8] })
      (fun t => decide (statusByte t = 0x2A#8 ∧ t.lastcmd = 0x07#8 ∧ t.rxLog = [] ∧ t.txLog = [])) = true := by decide

theorem witness_WaitDoneRepeatsUntilDone :
    ({ idleWith quiet with script := [HostOp.waitDone] } : State).script = HostOp.waitDone :: [] ∧
    ({ idleWith quiet with script := [HostOp.waitDone] } : State).done = false ∧
    ({ idleWith quiet with script := [HostOp.waitDone], done := true } : State).script = HostOp.waitDone :: [] ∧
    ({ idleWith quiet with script := [HostOp.waitDone], done := true } : State).done = true := by decide

theorem witness_ReadsRecordBusRdata :
    (envNow { idleWith quiet with script := [rd 0x0C#5] }).rst = false ∧
    busPorts { idleWith quiet with script := [rd 0x0C#5] } = some { we := false, addr := 0x0C#5, wdata := 0x00#8 } := by
  decide

/-- LEN = PCAP, the largest frame that fits. -/
theorem witness_SendAndIssueStartTransmit :
    ({ State.reset with len := 25#16 } : State).phase = .idle ∧
    ({ State.reset with len := 25#16 } : State).len.toNat + 7 ≤ ({ State.reset with len := 25#16 } : State).params.cap := by
  decide

theorem witness_AwaitStartsFreshReceive : State.reset.phase = .idle := by decide

/-- LEN = PCAP + 1, the smallest frame that does not fit. -/
theorem witness_OversizedPayloadOverflows :
    ({ State.reset with len := 26#16 } : State).phase = .idle ∧
    ({ State.reset with len := 26#16 } : State).params.cap < ({ State.reset with len := 26#16 } : State).len.toNat + 7 := by
  decide

theorem witness_ReservedCodesEndInBadcmd : State.reset.phase = .idle ∧ (receiving .payload quiet).phase ≠ .idle := by decide

/-- A code at CMD; NOP at CMD; another register. -/
theorem witness_WritesWhileBusyAreIgnored :
    (sending 0x01#8 0 quiet).phase ≠ .idle ∧ (0x00#5 : Addr) ≠ 0x01#5 ∧ (0x02#5 : Addr) ≠ 0x01#5 ∧
    (0x01#8 : Byte) ≠ 0x00#8 ∧ (0x02#5 : Addr) ≠ 0x00#5 := by decide

/-- Each clause's code, at the two sides of the overflow condition, and the ends of the reserved codes. -/
theorem witness_WriteToCmdWhileIdle :
    ({ State.reset with len := 25#16 } : State).phase = .idle ∧ ({ State.reset with len := 26#16 } : State).phase = .idle ∧
    (25#16 : Half).toNat + 7 ≤ State.reset.params.cap ∧ State.reset.params.cap < (26#16 : Half).toNat + 7 ∧
    4 ≤ (0x04#8 : Byte).toNat ∧ 4 ≤ (0xFF#8 : Byte).toNat ∧ ¬ 4 ≤ (0x03#8 : Byte).toNat := by decide

theorem witness_ParameterWritesWhileIdle : State.reset.phase = .idle := by decide

/-- PTR at the last cell and one past it, idle; and a busy block. -/
theorem witness_DataWriteStoresAtPtr :
    ({ State.reset with ptr := 24#16 } : State).phase = .idle ∧ (24#16 : Half).toNat < State.reset.params.cap - 7 ∧
    ¬ (25#16 : Half).toNat < State.reset.params.cap - 7 ∧ (sending 0x01#8 0 quiet).phase ≠ .idle := by decide

theorem witness_DataReadReturnsCellAtPtr :
    ({ State.reset with ptr := 24#16 } : State).phase = .idle ∧ (24#16 : Half).toNat < State.reset.params.cap - 7 ∧
    State.reset.params.cap - 7 ≤ (25#16 : Half).toNat ∧ (sending 0x01#8 0 quiet).phase ≠ .idle := by decide

theorem witness_OnlyDataWritesChangeBuf :
    ∃ t, (∀ d, Instr.wrLenHi 0x01#8 ≠ .wrData d) ∧ exec (.wrLenHi 0x01#8) State.reset = .next t :=
  ⟨_, nofun, rfl⟩

theorem witness_ParametersChangeOnlyUnderTheirWrites : ∃ t, exec .send State.reset = .next t := ⟨_, rfl⟩

theorem witness_InstructionsLeaveTheEngineRecords :
    ∃ t, exec (.wrCmd 0x01#8) (sending 0x01#8 3 quiet) = .next t ∧ (sending 0x01#8 3 quiet).phase ≠ .idle :=
  ⟨_, rfl, by decide⟩

theorem witness_DiscriminatorSelectsCause :
    ∃ t t', exec (decodeDisc 0x83#8) (trailing 0x83#8 quiet) = .next t ∧ exec (decodeDisc 0x85#8) (trailing 0x85#8 quiet) = .next t' :=
  ⟨_, _, rfl, rfl⟩

/-- Every range at its two ends. -/
theorem witness_CommandsInRangeAreIssued :
    (1#8 : Byte).toNat ≤ 1 ∧ (2#8 : Byte).toNat ≤ 2 ∧ (15#8 : Byte).toNat ≤ 15 ∧ (3#8 : Byte).toNat ≤ 3 ∧
    (4#8 : Byte).toNat ≤ 4 ∧ 5 ≤ (5#16 : Half).toNat ∧ (5#16 : Half).toNat ≤ 300 ∧ 5 ≤ (300#16 : Half).toNat ∧
    (300#16 : Half).toNat ≤ 300 := by decide

/-- One past every range. -/
theorem witness_OutOfRangeIsValidationError :
    1 < (2#8 : Byte).toNat ∧ 2 < (3#8 : Byte).toNat ∧ 15 < (16#8 : Byte).toNat ∧ 3 < (4#8 : Byte).toNat ∧
    4 < (5#8 : Byte).toNat ∧ (4#16 : Half).toNat < 5 ∧ 300 < (301#16 : Half).toNat := by decide

/-- The idle block with a payload of PCAP bytes still to load. -/
def loading : State :=
  { State.reset with script := loadFrame (List.replicate 25 0x55#8), env := List.replicate 29 quiet }

theorem witness_LoadedPayloadStandsInBuf :
    loading.params.Legal ∧ loading.phase = .idle ∧ loading.script = loadFrame (List.replicate 25 0x55#8) ++ [] ∧
    (List.replicate 25 (0x55#8 : Byte)).length ≤ loading.params.cap - 7 ∧ envStarts (List.replicate 29 quiet) loading ∧
    (List.replicate 29 quiet).length = (List.replicate 25 (0x55#8 : Byte)).length + 4 ∧
    ∀ e ∈ List.replicate 29 quiet, e.rst = false :=
  ⟨by decide, by decide, by decide, by decide, ⟨[], rfl⟩, by decide, by decide⟩

theorem witness_StalledTransmitHolds :
    ∃ t, (envNow (sending 0x01#8 2 quiet)).rst = false ∧ (sending 0x01#8 2 quiet).phase = .tx ∧
      (envNow (sending 0x01#8 2 quiet)).txReady = false ∧ hostPart (sending 0x01#8 2 quiet) = .next t :=
  ⟨_, by decide, by decide, by decide, rfl⟩

/-- A stalled edge at which the bus host writes LEN, and one more cycle. -/
theorem witness_StalledByteIsStable :
    ∃ t, (envNow { sending 0x01#8 2 quiet with env := [quiet, quiet], script := [wr addrLenLo 0x05#8] }).rst = false ∧
      ({ sending 0x01#8 2 quiet with env := [quiet, quiet], script := [wr addrLenLo 0x05#8] } : State).phase = .tx ∧
      (envNow { sending 0x01#8 2 quiet with env := [quiet, quiet], script := [wr addrLenLo 0x05#8] }).txReady = false ∧
      step { sending 0x01#8 2 quiet with env := [quiet, quiet], script := [wr addrLenLo 0x05#8] } = .next t ∧
      (envNow t).rst = false :=
  ⟨_, by decide, by decide, by decide, rfl, by decide⟩

theorem inv_sending_4 : Inv (sending 0x01#8 4 ready) := by constructor <;> decide

theorem inv_sending_5 : Inv (sending 0x01#8 5 ready) := by constructor <;> decide

theorem inv_sending_7 : Inv (sending 0x01#8 7 ready) := by constructor <;> decide

theorem inv_issuing_7 : Inv (sending 0x03#8 7 ready) := by constructor <;> decide

/-- At the payload byte and at the checksum byte, the last index of the statement but one. -/
theorem witness_TransferAdvancesTheFrame :
    (∃ t, Inv (sending 0x01#8 4 ready) ∧ (envNow (sending 0x01#8 4 ready)).rst = false ∧
      (sending 0x01#8 4 ready).phase = .tx ∧ (envNow (sending 0x01#8 4 ready)).txReady = true ∧
      hostPart (sending 0x01#8 4 ready) = .next t ∧
      (sending 0x01#8 4 ready).txidx.toNat < (sending 0x01#8 4 ready).len.toNat + 6) ∧
    ∃ t, Inv (sending 0x01#8 5 ready) ∧ hostPart (sending 0x01#8 5 ready) = .next t ∧
      (sending 0x01#8 5 ready).txidx.toNat = 4 + (sending 0x01#8 5 ready).len.toNat :=
  ⟨⟨_, inv_sending_4, by decide, by decide, by decide, rfl, by decide⟩, _, inv_sending_5, rfl, by decide⟩

theorem witness_LastTransferEndsTheFrame :
    (∃ t, Inv (sending 0x01#8 7 ready) ∧ (envNow (sending 0x01#8 7 ready)).rst = false ∧
      (sending 0x01#8 7 ready).phase = .tx ∧ (envNow (sending 0x01#8 7 ready)).txReady = true ∧
      hostPart (sending 0x01#8 7 ready) = .next t ∧
      (sending 0x01#8 7 ready).txidx.toNat = (sending 0x01#8 7 ready).len.toNat + 6 ∧
      (sending 0x01#8 7 ready).lastcmd = 0x01#8) ∧
    ∃ t, Inv (sending 0x03#8 7 ready) ∧ hostPart (sending 0x03#8 7 ready) = .next t ∧
      (sending 0x03#8 7 ready).txidx.toNat = (sending 0x03#8 7 ready).len.toNat + 6 ∧
      (sending 0x03#8 7 ready).lastcmd = 0x03#8 :=
  ⟨⟨_, inv_sending_7, by decide, by decide, by decide, rfl, by decide, by decide⟩, _, inv_issuing_7, rfl, by decide,
    by decide⟩

theorem witness_OfferedByteIsOfTheFrame :
    Inv (sending 0x01#8 4 ready) ∧ (envNow (sending 0x01#8 4 ready)).rst = false ∧ (sending 0x01#8 4 ready).phase = .tx :=
  ⟨inv_sending_4, by decide, by decide⟩

/-- In the middle of the frame and at its last byte. -/
theorem witness_FrameGoesOutWhole :
    (Inv (sending 0x01#8 4 ready) ∧ (envNow (sending 0x01#8 4 ready)).rst = false ∧ (sending 0x01#8 4 ready).phase = .tx ∧
      (∃ t, step (sending 0x01#8 4 ready) = .next t) ∧
      (sending 0x01#8 4 ready).txLog =
        [] ++ (frameOf (payload (sending 0x01#8 4 ready))).take (sending 0x01#8 4 ready).txidx.toNat) ∧
    Inv (sending 0x03#8 7 ready) ∧ (∃ t, step (sending 0x03#8 7 ready) = .next t) ∧
      (sending 0x03#8 7 ready).txLog =
        [] ++ (frameOf (payload (sending 0x03#8 7 ready))).take (sending 0x03#8 7 ready).txidx.toNat :=
  ⟨⟨inv_sending_4, by decide, by decide, exists_next (by decide), by decide⟩, inv_issuing_7, exists_next (by decide),
    by decide⟩

/-- Idle with the one-byte payload 0x0A, and eight ready edges to come. -/
def loaded : State := { State.reset with len := 1#16, buf := [(0, 0x0A#8)], env := List.replicate 8 ready }

theorem inv_loaded : Inv loaded := by constructor <;> decide

theorem witness_SendTransfersItsFrame :
    ∃ a, Inv loaded ∧ loaded.phase = .idle ∧ loaded.len.toNat + 7 ≤ loaded.params.cap ∧ exec .send loaded = .next a ∧
      a.script = [] ∧ envStarts (List.replicate 8 ready) a ∧ (List.replicate 8 ready).length = a.len.toNat + 7 ∧
      ∀ e ∈ List.replicate 8 ready, e.rst = false ∧ e.txReady = true :=
  ⟨_, inv_loaded, by decide, by decide, rfl, rfl, ⟨[], rfl⟩, rfl, by decide⟩

/-- SETTLE = 0 at the first edge; a tick, and none, one count before the end. -/
theorem witness_SettleEdge :
    (∃ t, (envNow (settling 0#16 0#16 ticks)).rst = false ∧ (settling 0#16 0#16 ticks).phase = .settle ∧
      hostPart (settling 0#16 0#16 ticks) = .next t ∧
      (settling 0#16 0#16 ticks).settle.toNat ≤ (settling 0#16 0#16 ticks).setcnt.toNat) ∧
    (∃ t, hostPart (settling 2#16 1#16 ticks) = .next t ∧ (envNow (settling 2#16 1#16 ticks)).tick = true ∧
      (settling 2#16 1#16 ticks).setcnt.toNat < (settling 2#16 1#16 ticks).settle.toNat) ∧
    ∃ t, hostPart (settling 2#16 1#16 quiet) = .next t ∧ (envNow (settling 2#16 1#16 quiet)).tick = false :=
  ⟨⟨_, by decide, by decide, rfl, by decide⟩, ⟨_, rfl, by decide, by decide⟩, _, rfl, by decide⟩

/-- TMO = ELAPSED, with a byte offered. -/
theorem witness_DeadlineEndsTheReceive :
    ∃ t, (envNow { receiving .waitSync1 (offers 0xA0#8) with elapsed := 9#16 }).rst = false ∧
      ({ receiving .waitSync1 (offers 0xA0#8) with elapsed := 9#16 } : State).phase = .rx ∧
      ({ receiving .waitSync1 (offers 0xA0#8) with elapsed := 9#16 } : State).tmo.toNat ≤ (9#16 : Half).toNat ∧
      hostPart { receiving .waitSync1 (offers 0xA0#8) with elapsed := 9#16 } = .next t :=
  ⟨_, by decide, by decide, by decide, rfl⟩

/-- The last edge before the deadline. -/
theorem witness_ReceiveEdgeWithoutByte :
    ∃ t, (envNow { receiving .waitSync1 ticks with elapsed := 8#16 }).rst = false ∧
      ({ receiving .waitSync1 ticks with elapsed := 8#16 } : State).phase = .rx ∧
      (8#16 : Half).toNat < ({ receiving .waitSync1 ticks with elapsed := 8#16 } : State).tmo.toNat ∧
      hostPart { receiving .waitSync1 ticks with elapsed := 8#16 } = .next t ∧
      (envNow { receiving .waitSync1 ticks with elapsed := 8#16 }).rx = none :=
  ⟨_, by decide, by decide, by decide, rfl, by decide⟩

/-- Every decoder state r and byte b: the hypotheses of the statements about one received byte. -/
theorem receiving_byte (r : RxState) (b : Byte) :
    ∃ t, (envNow (receiving r (offers b))).rst = false ∧ (receiving r (offers b)).phase = .rx ∧
      (receiving r (offers b)).elapsed.toNat < (receiving r (offers b)).tmo.toNat ∧
      hostPart (receiving r (offers b)) = .next t ∧ (envNow (receiving r (offers b))).rx = some b ∧
      (receiving r (offers b)).rxst = r :=
  ⟨_, rfl, rfl, by show (0#16 : Half).toNat < (9#16 : Half).toNat; decide, rfl, rfl, rfl⟩

/-- Both sync states, with the byte that leads on and one that does not. -/
theorem witness_SyncBytes :
    (∃ t, hostPart (receiving .waitSync1 (offers 0xA0#8)) = .next t) ∧ (receiving .waitSync1 (offers 0xA0#8)).phase = .rx ∧
    (envNow (receiving .waitSync1 (offers 0x9F#8))).rx = some 0x9F#8 ∧ (0x9F#8 : Byte) ≠ 0xA0#8 ∧
    (receiving .waitSync2 (offers 0xA1#8)).rxst = .waitSync2 ∧ (0xA0#8 : Byte) ≠ 0xA1#8 :=
  ⟨⟨_, rfl⟩, by decide, by decide, by decide, by decide, by decide⟩

theorem witness_LengthBytes :
    (receiving .lenHigh (offers 0xFF#8)).rxst = .lenHigh ∧ (receiving .lenLow (offers 0x00#8)).rxst = .lenLow ∧
    (∃ t, hostPart (receiving .lenHigh (offers 0xFF#8)) = .next t) ∧
    (envNow (receiving .lenLow (offers 0x00#8))).rx = some 0x00#8 :=
  ⟨by decide, by decide, ⟨_, rfl⟩, by decide⟩

/-- The first payload byte of an empty frame (T-RX-4), where one byte reaches RXLEN + 1. -/
theorem witness_PayloadBytes :
    ∃ t, Inv (receiving .payload (offers 0x00#8)) ∧ (envNow (receiving .payload (offers 0x00#8))).rst = false ∧
      (receiving .payload (offers 0x00#8)).phase = .rx ∧
      (receiving .payload (offers 0x00#8)).elapsed.toNat < (receiving .payload (offers 0x00#8)).tmo.toNat ∧
      hostPart (receiving .payload (offers 0x00#8)) = .next t ∧
      (envNow (receiving .payload (offers 0x00#8))).rx = some 0x00#8 ∧ (receiving .payload (offers 0x00#8)).rxst = .payload :=
  ⟨_, by constructor <;> decide, by decide, by decide, by decide, rfl, by decide, by decide⟩

theorem witness_TrailerBytes :
    (∃ t, (envNow (trailing 0x83#8 (offers 0x0A#8))).rst = false ∧ (trailing 0x83#8 (offers 0x0A#8)).phase = .rx ∧
      (trailing 0x83#8 (offers 0x0A#8)).elapsed.toNat < (trailing 0x83#8 (offers 0x0A#8)).tmo.toNat ∧
      hostPart (trailing 0x83#8 (offers 0x0A#8)) = .next t ∧
      (envNow (trailing 0x83#8 (offers 0x0A#8))).rx = some 0x0A#8 ∧
      (trailing 0x83#8 (offers 0x0A#8)).rxst = .waitTrailer) ∧
    (envNow (trailing 0x83#8 (offers 0x0D#8))).rx = some 0x0D#8 ∧ (0x0D#8 : Byte) ≠ 0x0A#8 :=
  ⟨⟨_, by decide, by decide, by decide, rfl, by decide, by decide⟩, by decide, by decide⟩

theorem witness_FrameEndRunsTheDiscriminator :
    ∃ t, (envNow (trailing 0x85#8 (offers 0x0A#8))).rst = false ∧ (trailing 0x85#8 (offers 0x0A#8)).phase = .rx ∧
      (trailing 0x85#8 (offers 0x0A#8)).elapsed.toNat < (trailing 0x85#8 (offers 0x0A#8)).tmo.toNat ∧
      hostPart (trailing 0x85#8 (offers 0x0A#8)) = .next t ∧
      (envNow (trailing 0x85#8 (offers 0x0A#8))).rx = some 0x0A#8 ∧
      (trailing 0x85#8 (offers 0x0A#8)).rxst = .waitTrailer :=
  ⟨_, by decide, by decide, by decide, rfl, by decide, by decide⟩

/-- The bytes of a frame with the one-byte payload 0x84 and a wrong checksum. -/
def nackFrame : List Byte := [0xA0#8, 0xA1#8, 0x00#8, 0x01#8, 0x84#8, 0x00#8, 0x0D#8, 0x0A#8]

/-- A fresh receive that is offered them. -/
def awaiting : State := { receiving .waitSync1 quiet with env := nackFrame.map offers }

theorem witness_WellFormedFrameDecodes :
    awaiting.phase = .rx ∧ awaiting.rxst = .waitSync1 ∧ awaiting.discseen = false ∧
    awaiting.elapsed.toNat < awaiting.tmo.toNat ∧ awaiting.script = [] ∧ ([] : List Byte).length + 1 ≤ 65535 ∧
    nackFrame = [0xA0#8, 0xA1#8, BitVec.ofNat 8 ((([] : List Byte).length + 1) / 256),
      BitVec.ofNat 8 (([] : List Byte).length + 1)] ++ [0x84#8] ++ [0x00#8, 0x0D#8, 0x0A#8] ∧
    envStarts (nackFrame.map offers) awaiting :=
  ⟨by decide, by decide, by decide, by decide, by decide, by decide, by decide, ⟨[], rfl⟩⟩

/-- TMO = 9 with nothing counted, and TMO reached (n = 0). -/
theorem witness_SilentReceiveTimesOut :
    (receiving .waitSync1 ticks).phase = .rx ∧ (receiving .waitSync1 ticks).script = [] ∧
    (receiving .waitSync1 ticks).elapsed.toNat + 9 = (receiving .waitSync1 ticks).tmo.toNat ∧
    envStarts (List.replicate (9 + 1) ticks) { receiving .waitSync1 ticks with env := List.replicate 10 ticks } ∧
    (9#16 : Half).toNat + 0 = (receiving .waitSync1 ticks).tmo.toNat ∧
    envStarts (List.replicate (0 + 1) ticks) (receiving .waitSync1 ticks) :=
  ⟨by decide, by decide, by decide, ⟨[], rfl⟩, by decide, ⟨[], rfl⟩⟩

/-- With the default parameters, and with others. -/
theorem witness_ResetEdgeGivesTheResetValues :
    (envNow (sending 0x01#8 3 resetting)).rst = true ∧
    (envNow { idleWith resetting with
      params := { Config.Params.default with tmoReset := 7#16, settleReset := 3#16 } }).rst = true := by decide

/-- R47: TMO and SETTLE take the block's own reset values, not the defaults. -/
theorem test_reset_edge_parameters :
    onNext (step { idleWith resetting with
        params := { Config.Params.default with tmoReset := 7#16, settleReset := 3#16 } })
      (fun t => decide (t.tmo = 7#16 ∧ t.settle = 3#16)) = true := by decide

theorem witness_OutputPorts :
    (envNow (idleWith resetting)).rst = true ∧ (envNow (idleWith quiet)).rst = false ∧ (idleWith quiet).phase ≠ .tx ∧
    ∀ p, busPorts (idleWith quiet) = some p → p.we = true :=
  ⟨by decide, by decide, by decide, nofun⟩

/-- The smallest and the largest legal block. -/
theorem witness_InvariantHoldsAtReset :
    ({ Config.Params.default with cap := 8 } : Config.Params).Legal ∧
    ({ Config.Params.default with cap := 65542 } : Config.Params).Legal := by decide

theorem witness_EveryEdgeKeepsTheInvariant :
    Inv (sending 0x03#8 7 ready) ∧ ∃ t, step (sending 0x03#8 7 ready) = .next t :=
  ⟨inv_issuing_7, exists_next (by decide)⟩

/-- A block whose bus host asks for a command of the catalogue. -/
theorem witness_NoFatalState :
    Inv { loaded with script := [.command [0x04#8, 0x01#8]] } ∧
    ∀ p rest, ({ loaded with script := [HostOp.command [0x04#8, 0x01#8]] } : State).script = .command p :: rest →
      ∃ i, decodePayload p = .ok i := by
  refine ⟨by constructor <;> decide, ?_⟩
  intro p rest h
  injection h with h _
  injection h with h
  subst h
  exact ⟨.factoryDefault, by decide⟩

theorem witness_EveryEdgeKeepsBufCanonical :
    Memory.wf (sending 0x01#8 4 ready).buf ∧ ∃ t, step (sending 0x01#8 4 ready) = .next t :=
  ⟨by decide, exists_next (by decide)⟩

theorem witness_ParametersAreFixed : ∃ t, step (idleWith resetting) = .next t := exists_next (by decide)

theorem witness_RunningOperationKeepsItsOperands :
    (sending 0x01#8 4 ready).phase ≠ .idle ∧ (envNow (sending 0x01#8 4 ready)).rst = false ∧
    ∃ t, step (sending 0x01#8 4 ready) = .next t :=
  ⟨by decide, by decide, exists_next (by decide)⟩

/-- The completing edge with a clear of DONE on the bus. -/
theorem witness_CompletionWinsOverClear :
    ∃ t, ({ sending 0x01#8 7 ready with script := [wr addrStatus 0x02#8] } : State).phase ≠ .idle ∧
      (envNow { sending 0x01#8 7 ready with script := [wr addrStatus 0x02#8] }).rst = false ∧
      step { sending 0x01#8 7 ready with script := [wr addrStatus 0x02#8] } = .next t ∧ t.phase = .idle :=
  ⟨_, by decide, by decide, rfl, by decide⟩

theorem witness_CommandAtCompletingEdgeIsLost :
    (sending 0x01#8 7 ready).phase ≠ .idle ∧ (envNow (sending 0x01#8 7 ready)).rst = false ∧
    ({ sending 0x01#8 7 ready with script := [wr addrCmd 0x01#8] } : State).script =
      .bus { we := true, addr := 0x00#5, wdata := 0x01#8 } :: [] ∧ (0x01#8 : Byte) ≠ 0x00#8 ∧
    ∃ t, step { sending 0x01#8 7 ready with script := [wr addrCmd 0x01#8] } = .next t :=
  ⟨by decide, by decide, by decide, by decide, exists_next (by decide)⟩

theorem witness_ParseInvertsFrame : (List.replicate 25 (0x55#8 : Byte)).length ≤ 65535 := by decide

/-- In a settle, two edges that differ in the RX port and in `tx_ready`'s companion inputs only. -/
theorem witness_RxPortIsUnseenOutsideReceive :
    (settling 2#16 1#16 ticks).phase ≠ .rx ∧ ({ ticks with rx := some 0x83#8 } : EnvInput).rst = ticks.rst ∧
    ({ ticks with rx := some 0x83#8 } : EnvInput).txReady = ticks.txReady ∧
    ({ ticks with rx := some 0x83#8 } : EnvInput).tick = ticks.tick := by decide


end Sys2Proof.Tests
end

section
/-! SUPPORT. The scope of the block: what it fixes (R6), the values reset gives it (R47, R143, R144), and that a block at
reset meets the invariant. -/

namespace Sys2Proof.Machine

/-! ### The parameters are written by nothing (R6) -/

@[simp] theorem writeStatus_params (d : Byte) (s : State) : (writeStatus d s).params = s.params := by
  unfold writeStatus
  split_ifs <;> rfl

@[simp] theorem encodeStart_params (s : State) : (encodeStart s).params = s.params := by
  unfold encodeStart
  split_ifs <;> rfl

@[simp] theorem dataPortWrite_params (d : Byte) (s : State) : (dataPortWrite d s).params = s.params := by
  unfold dataPortWrite
  split_ifs <;> rfl

@[simp] theorem dataPortReadEffect_params (s : State) : (dataPortReadEffect s).params = s.params := by
  unfold dataPortReadEffect whenIdle
  split_ifs <;> rfl

@[simp] theorem hostCommand_params (v : Bool) (p : List Byte) (s : State) : (hostCommand v p s).params = s.params := by
  cases v <;> rfl

/-- A bus write while idle keeps the parameters, at every address and for every code. -/
theorem busWrite_idle_params {s : State} (hp : s.phase = .idle) (a : Addr) (d : Byte) :
    (busWrite a d s).params = s.params := by
  rcases busWrite_idle hp a d with ⟨-, h⟩ | ⟨-, -, h⟩ | ⟨-, -, h⟩ | ⟨-, -, h⟩ | ⟨-, -, h⟩ | ⟨-, h⟩ | ⟨_, _, _, _, h⟩ <;>
    simp [h]

/-- The bus part of an edge keeps the parameters. -/
theorem hostPart_params {s t : State} (h : hostPart s = .next t) : t.params = s.params := by
  by_cases hp : s.phase = .idle
  · rcases hostPart_cases h with ⟨-, rfl⟩ | ⟨p, -, -, rfl⟩ | ⟨p, -, -, rfl⟩ | ⟨v, q, rfl⟩
    · rfl
    · split_ifs <;> simp
    · exact busWrite_idle_params (s := nextCycle s) hp p.addr p.wdata
    · simp
  · exact (hostPart_busy_fields hp h).1

/-- The engine part of an edge keeps the parameters. -/
theorem engine_params {s m t : State} {e : EnvInput} (h : engine s m e = .next t) : t.params = m.params :=
  (congrArg State.params (engine_frame h) :)

@[simp] theorem resetEdge_params (s : State) : (resetEdge s).params = s.params :=
  (congrArg State.params (resetEdge_eq s) :)

/-- Settles O55: neither the reset edge nor the two parts of any other edge write the parameters. -/
theorem parametersAreFixed : Obligations.ParametersAreFixed := by
  intro s t h
  rcases step_cases h with ⟨-, rfl⟩ | ⟨-, m, hm, he⟩
  · exact resetEdge_params s
  · exact (engine_params he).trans (hostPart_params hm)

/-! ### The reset values (R47, R143, R144) -/

@[simp] theorem resetEdge_script (s : State) : (resetEdge s).script = scriptHeld s :=
  congrArg State.script (resetEdge_eq s)

@[simp] theorem resetEdge_buf (s : State) : (resetEdge s).buf = [] := congrArg State.buf (resetEdge_eq s)

@[simp] theorem resetEdge_epoch (s : State) : (resetEdge s).epoch = s.epoch + 1 :=
  congrArg State.epoch (resetEdge_eq s)

/-- With no written cell, BUF reads as the free contents of its epoch (R144). -/
theorem bufRead_of_buf_nil {s : State} (h : s.buf = []) (j : Nat) : bufRead s j = Config.freeBuf s.epoch j := by
  simp [bufRead, h, Memory.read]

/-- Settles O48: the fields of one closed state. -/
theorem resetStateHoldsTheResetValues : Obligations.ResetStateHoldsTheResetValues := by
  unfold Obligations.ResetStateHoldsTheResetValues
  decide

/-- Settles O49, by the reset edge written out over `State.resetWith`. -/
theorem resetEdgeGivesTheResetValues : Obligations.ResetEdgeGivesTheResetValues := by
  intro s h
  refine ⟨resetEdge s, step_reset h, ?_, ?_, ?_, fun j => ?_⟩
  · rw [resetEdge_script]
    exact resetEdge_eq s
  · exact congrArg State.tmo (resetEdge_eq s)
  · exact congrArg State.settle (resetEdge_eq s)
  · rw [bufRead_of_buf_nil (resetEdge_buf s), resetEdge_epoch]

/-! ### The invariant at reset -/

/-- An idle block meets the invariant if its parameters, BUF and CAUSE are in order: every other clause speaks of a
running operation. -/
theorem inv_of_idle {s : State} (hp : s.phase = .idle) (legal : s.params.Legal) (bufWf : Memory.wf s.buf)
    (bufBound : ∀ c ∈ s.buf, c.1 < pcap s) (causeOk : causeFits s.lastcmd s.cause = true) : Inv s := by
  have tx : s.phase ≠ .tx := by simp [hp]
  have settle : s.phase ≠ .settle := by simp [hp]
  have rx : s.phase ≠ .rx := by simp [hp]
  exact {
    legal, bufWf, bufBound, causeOk
    busyClear := fun h => absurd hp h
    txCommand := fun h => absurd h tx
    txFits := fun h => absurd h tx
    txIndex := fun h => absurd h tx
    txFold := fun h => absurd h tx
    txSum := fun h => absurd h tx
    settleCommand := fun h => absurd h settle
    settleCount := fun h => absurd h settle
    rxCommand := fun h => absurd h rx
    rxDeadline := fun h => absurd h rx
    rxLive := fun h => absurd h rx
    rxCount := fun h => absurd h rx
    rxSeen := fun h => absurd h rx }

/-- Settles O51: a block at reset is idle, with no cell of BUF written and CAUSE = SUCCESS. -/
theorem invariantHoldsAtReset : Obligations.InvariantHoldsAtReset := fun _ hp =>
  inv_of_idle rfl hp Memory.nil_wf (fun _ hc => absurd hc List.not_mem_nil) rfl

end Sys2Proof.Machine
end

section
/-! SUPPORT. One instruction at a time: what each shared update of an instruction writes, what any instruction can do, and
the command codes, writes and reads of the bus one by one. -/

namespace Sys2Proof.Machine

/-! ### What each shared update writes

A right side of the form `{ s with f := (update s).f }` names the fields an update can write. -/

theorem writeStatus_eq (d : Byte) (s : State) :
    writeStatus d s = { s with done := s.done && !d.getLsbD 1, cmdlost := s.cmdlost && !d.getLsbD 6 } := by
  unfold writeStatus
  cases d.getLsbD 1 <;> cases d.getLsbD 6 <;> simp [acknowledge]

theorem dataPortWrite_eq (d : Byte) (s : State) :
    dataPortWrite d s = { s with ptr := s.ptr + 1#16, buf := (dataPortWrite d s).buf } := by
  unfold dataPortWrite
  split_ifs <;> rfl

/-- A DATA write touches none of the other registers of the bus host. -/
theorem dataPortWrite_keeps (d : Byte) (s : State) :
    (dataPortWrite d s).len = s.len ∧ (dataPortWrite d s).tmo = s.tmo ∧ (dataPortWrite d s).settle = s.settle := by
  rw [dataPortWrite_eq]
  exact ⟨rfl, rfl, rfl⟩

theorem dataPortReadEffect_eq (s : State) :
    dataPortReadEffect s = { s with ptr := (dataPortReadEffect s).ptr } := by
  unfold dataPortReadEffect whenIdle
  split_ifs <;> rfl

theorem hostCommand_eq (v : Bool) (p : List Byte) (s : State) :
    hostCommand v p s = { s with
      script := (hostCommand v p s).script, validationError := (hostCommand v p s).validationError } := by
  cases v <;> rfl

/-- The operation of an accepted code (R46): transmit, receive or the completion with BADCMD. -/
abbrev IsStart (start : State → State) : Prop := start = encodeStart ∨ start = rxStart ∨ start = complete .badCmd

/-- A code written to CMD keeps what the bus host owns, BUF, CKSUM, the tick counter of a settle and the environment. -/
theorem command_eq {start : State → State} (hs : IsStart start) (c : Byte) (s : State) :
    command c start s = { s with
      lastcmd := (command c start s).lastcmd, done := (command c start s).done, cause := (command c start s).cause
      cmdlost := (command c start s).cmdlost, phase := (command c start s).phase
      txidx := (command c start s).txidx, txck := (command c start s).txck, rxst := (command c start s).rxst
      rxlen := (command c start s).rxlen, rxcnt := (command c start s).rxcnt, disc := (command c start s).disc
      discseen := (command c start s).discseen, elapsed := (command c start s).elapsed } := by
  by_cases hp : s.phase = .idle
  · rw [command_idle hp]
    rcases hs with rfl | rfl | rfl
    · by_cases hf : (accept c s).len.toNat + 7 ≤ (accept c s).params.cap
      · rw [encodeStart_fits hf]
        rfl
      · rw [encodeStart_overflows (by omega)]
        rfl
    · rfl
    · rfl
  · rw [command_busy hp]
    rfl

/-- A bus write to any address but CMD writes the flags it clears, the registers the bus host owns, or BUF. -/
theorem busWrite_eq {a : Addr} (ha : a ≠ 0x00#5) (d : Byte) (s : State) :
    busWrite a d s = { s with
      done := (busWrite a d s).done, cmdlost := (busWrite a d s).cmdlost, len := (busWrite a d s).len
      ptr := (busWrite a d s).ptr, tmo := (busWrite a d s).tmo, settle := (busWrite a d s).settle
      buf := (busWrite a d s).buf } := by
  by_cases h1 : a = 0x01#5
  · have h : busWrite a d s = writeStatus d s := if_pos h1
    rw [h, writeStatus_eq]
  by_cases hp : s.phase = .idle
  · rcases busWrite_idle hp a d with
      ⟨-, h⟩ | ⟨-, -, h⟩ | ⟨h0, -⟩ | ⟨h0, -⟩ | ⟨h0, -⟩ | ⟨-, h⟩ | ⟨_, _, _, _, h⟩
    · rw [h, writeStatus_eq]
    · rw [h]
    · exact absurd h0 ha
    · exact absurd h0 ha
    · exact absurd h0 ha
    · rw [h, dataPortWrite_eq]
    · rw [h]
  · have h : busWrite a d s = s := by rw [busWrite, if_neg h1, if_neg ha, whenIdle_busy hp]
    rw [h]

/-- The addresses under which each register of the bus host changes (R44, R49). -/
theorem busWrite_owned {a : Addr} (ha : a ≠ 0x00#5) (d : Byte) (s : State) :
    ((busWrite a d s).len = s.len ∨ a = 0x02#5 ∨ a = 0x03#5) ∧
    ((busWrite a d s).ptr = s.ptr ∨ a = 0x04#5 ∨ a = 0x05#5 ∨ a = 0x06#5) ∧
    ((busWrite a d s).tmo = s.tmo ∨ a = 0x0C#5 ∨ a = 0x0D#5) ∧
    ((busWrite a d s).settle = s.settle ∨ a = 0x0E#5 ∨ a = 0x0F#5) := by
  by_cases h1 : a = 0x01#5
  · have h : busWrite a d s = writeStatus d s := if_pos h1
    rw [h, writeStatus_eq]
    exact ⟨.inl rfl, .inl rfl, .inl rfl, .inl rfl⟩
  by_cases hp : s.phase = .idle
  · rw [busWrite, if_neg h1, if_neg ha, whenIdle_idle hp]
    split_ifs <;> simp [*, dataPortWrite_keeps]
  · have h : busWrite a d s = s := by rw [busWrite, if_neg h1, if_neg ha, whenIdle_busy hp]
    rw [h]
    exact ⟨.inl rfl, .inl rfl, .inl rfl, .inl rfl⟩

/-! ### What any instruction can do -/

theorem exec_decodeWrite_inv {a : Addr} {d : Byte} {s t : State} (h : exec (decodeWrite a d) s = .next t) :
    t = busWrite a d s := by
  rw [exec_decodeWrite] at h
  exact (Host.Outcome.next.inj h).symm

/-- A write to CMD does nothing or is a command. -/
theorem busWrite_cmd (d : Byte) (s : State) :
    busWrite 0x00#5 d s = s ∨ ∃ start, IsStart start ∧ busWrite 0x00#5 d s = command d start s := by
  rw [busWrite, if_neg (by decide), if_pos rfl]
  split_ifs
  · exact .inl rfl
  · exact .inr ⟨_, .inl rfl, rfl⟩
  · exact .inr ⟨_, .inr (.inl rfl), rfl⟩
  · exact .inr ⟨_, .inr (.inr rfl), rfl⟩

/-- What any instruction can do. -/
inductive ExecEffect (i : Instr) (s : State) : State → Prop
  | nothing : ExecEffect i s s
  | reads (b : Byte) : ExecEffect i s (recordRead b s)
  | readsData (hi : i = .rdData) : ExecEffect i s (dataPortReadEffect (recordRead (dataPortValue s) s))
  | commands (c : Byte) {start : State → State} (hs : IsStart start) : ExecEffect i s (command c start s)
  | writes {a : Addr} {d : Byte} (hi : i = decodeWrite a d) (ha : a ≠ 0x00#5) : ExecEffect i s (busWrite a d s)
  | endsFrame (c : Cause) : ExecEffect i s (frameEnd c s)
  | hosts (v : Bool) (p : List Byte) : ExecEffect i s (hostCommand v p s)

/-- A bus write to any address but CMD, as an instruction. -/
theorem ExecEffect.of_decodeWrite {a : Addr} {d : Byte} {s t : State} (ha : a ≠ 0x00#5)
    (h : exec (decodeWrite a d) s = .next t) : ExecEffect (decodeWrite a d) s t :=
  exec_decodeWrite_inv h ▸ .writes rfl ha

theorem exec_effect {i : Instr} {s t : State} (h : exec i s = .next t) : ExecEffect i s t := by
  cases i with
  | nop | wrCksum _ | wrDisc _ | wrState _ | wrRxlenHi _ | wrRxlenLo _ | wrElapsedHi _ | wrElapsedLo _ | wrPcapHi _
  | wrPcapLo _ | wrRsv1417 _ _ | wrRsv181F _ _ =>
    cases h
    exact .nothing
  | send | issue =>
    cases h
    exact .commands _ (.inl rfl)
  | await =>
    cases h
    exact .commands _ (.inr (.inl rfl))
  | reserved0407 _ | reserved080F _ | reserved101F _ | reserved203F _ | reserved407F _ | reserved80FF _ =>
    cases h
    exact .commands _ (.inr (.inr rfl))
  | wrCmd d =>
    obtain rfl : t = busWrite 0x00#5 d s := exec_decodeWrite_inv (a := 0x00#5) h
    rcases busWrite_cmd d s with hw | ⟨start, hs, hw⟩ <;> rw [hw]
    · exact .nothing
    · exact .commands d hs
  | rdData =>
    cases h
    exact .readsData rfl
  | rdCmd | rdStatus | rdLenHi | rdLenLo | rdPtrHi | rdPtrLo | rdCksum | rdDisc | rdState | rdRxlenHi | rdRxlenLo
  | rdTmoHi | rdTmoLo | rdSettleHi | rdSettleLo | rdElapsedHi | rdElapsedLo | rdPcapHi | rdPcapLo | rdRsv1417 _
  | rdRsv181F _ =>
    cases h
    exact .reads _
  | wrStatus d => exact .of_decodeWrite (a := 0x01#5) (by decide) h
  | wrLenHi d => exact .of_decodeWrite (a := 0x02#5) (by decide) h
  | wrLenLo d => exact .of_decodeWrite (a := 0x03#5) (by decide) h
  | wrPtrHi d => exact .of_decodeWrite (a := 0x04#5) (by decide) h
  | wrPtrLo d => exact .of_decodeWrite (a := 0x05#5) (by decide) h
  | wrData d => exact .of_decodeWrite (a := 0x06#5) (by decide) h
  | wrTmoHi d => exact .of_decodeWrite (a := 0x0C#5) (by decide) h
  | wrTmoLo d => exact .of_decodeWrite (a := 0x0D#5) (by decide) h
  | wrSettleHi d => exact .of_decodeWrite (a := 0x0E#5) (by decide) h
  | wrSettleLo d => exact .of_decodeWrite (a := 0x0F#5) (by decide) h
  | ack | nack | unrecognized _ =>
    cases h
    exact .endsFrame _
  | setConstellation | configureSbas | configureQzss | systemRestart | factoryDefault | powerMode | positionRate
  | positionPinningParams | positionPinning | dopMask | nmeaTalkerId =>
    cases h
    exact .hosts _ _

/-- Settles O23: of what an instruction can do, only DATA reads and bus writes touch these registers, and a bus write does
so only at their addresses. -/
theorem parametersChangeOnlyUnderTheirWrites : Obligations.ParametersChangeOnlyUnderTheirWrites := by
  intro i s t h
  cases exec_effect h with
  | nothing | reads _ | endsFrame _ => exact ⟨.inl rfl, .inl rfl, .inl rfl, .inl rfl⟩
  | readsData hi =>
    rw [dataPortReadEffect_eq]
    exact ⟨.inl rfl, .inr (.inr (.inr (.inl hi))), .inl rfl, .inl rfl⟩
  | commands c hs =>
    rw [command_eq hs]
    exact ⟨.inl rfl, .inl rfl, .inl rfl, .inl rfl⟩
  | hosts v p =>
    rw [hostCommand_eq]
    exact ⟨.inl rfl, .inl rfl, .inl rfl, .inl rfl⟩
  | @writes a d hi ha =>
    obtain ⟨hlen, hptr, htmo, hsettle⟩ := busWrite_owned ha d s
    refine ⟨hlen.imp id ?_, hptr.imp id ?_, htmo.imp id ?_, hsettle.imp id ?_⟩
    · rintro (rfl | rfl)
      · exact .inl ⟨d, hi⟩
      · exact .inr ⟨d, hi⟩
    · rintro (rfl | rfl | rfl)
      · exact .inl ⟨d, hi⟩
      · exact .inr (.inl ⟨d, hi⟩)
      · exact .inr (.inr (.inr ⟨d, hi⟩))
    · rintro (rfl | rfl)
      · exact .inl ⟨d, hi⟩
      · exact .inr ⟨d, hi⟩
    · rintro (rfl | rfl)
      · exact .inl ⟨d, hi⟩
      · exact .inr ⟨d, hi⟩

/-- Settles O24: no shared update of an instruction writes these fields, and a command leaves those of a running operation
because it is lost (R45). -/
theorem instructionsLeaveTheEngineRecords : Obligations.InstructionsLeaveTheEngineRecords := by
  intro i s t h
  cases exec_effect h with
  | nothing | reads _ | endsFrame _ => simp
  | readsData _ =>
    rw [dataPortReadEffect_eq]
    simp
  | commands c hs =>
    by_cases hp : s.phase = .idle
    · rw [command_eq hs]
      exact ⟨rfl, rfl, rfl, rfl, rfl, rfl, rfl, rfl, fun hb => absurd hp hb⟩
    · rw [command_busy hp]
      simp
  | writes _ ha =>
    rw [busWrite_eq ha]
    simp
  | hosts v p =>
    rw [hostCommand_eq]
    simp

/-! ### Command codes (R46, R64) -/

/-- Settles O7. -/
theorem nopHasNoEffect : Obligations.NopHasNoEffect := fun _ => rfl

theorem exec_send (s : State) : exec .send s = .next (command 0x01#8 encodeStart s) := rfl

theorem exec_await (s : State) : exec .await s = .next (command 0x02#8 rxStart s) := rfl

theorem exec_issue (s : State) : exec .issue s = .next (command 0x03#8 encodeStart s) := rfl

/-- A code of a transmit, accepted with a frame that fits (R75). -/
theorem command_encodeStart_fits {s : State} (hp : s.phase = .idle) (hf : s.len.toNat + 7 ≤ s.params.cap) (c : Byte) :
    command c encodeStart s = { s with
      lastcmd := c, done := false, cause := .success, phase := .tx, txidx := 0#17, txck := 0x00#8 } := by
  rw [command_idle hp, encodeStart_fits (s := accept c s) hf]
  rfl

/-- A code of a transmit, accepted with a frame that does not fit (R72, R121). -/
theorem command_encodeStart_overflows {s : State} (hp : s.phase = .idle) (hf : s.params.cap < s.len.toNat + 7)
    (c : Byte) :
    command c encodeStart s = { s with lastcmd := c, done := true, cause := .overflow } := by
  rw [command_idle hp, encodeStart_overflows (s := accept c s) hf]
  simp [complete, accept, hp]

/-- The code of a receive, accepted (R84). -/
theorem command_rxStart {s : State} (hp : s.phase = .idle) (c : Byte) :
    command c rxStart s = { s with
      lastcmd := c, done := false, cause := .success, phase := .rx, rxst := .waitSync1, rxlen := 0#16,
      rxcnt := 0#17, disc := 0x00#8, discseen := false, elapsed := 0#16 } := by
  rw [command_idle hp]
  rfl

/-- A reserved code, accepted (R65, R130). -/
theorem reservedCommand_idle {s : State} (hp : s.phase = .idle) (c : Byte) :
    reservedCommand c s = { s with lastcmd := c, done := true, cause := .badCmd } := by
  rw [reservedCommand, command_idle hp]
  simp [complete, accept, hp]

/-- Settles O8. -/
theorem sendAndIssueStartTransmit : Obligations.SendAndIssueStartTransmit := by
  intro s hp hf
  rw [exec_send, exec_issue, command_encodeStart_fits hp hf, command_encodeStart_fits hp hf]
  exact ⟨rfl, rfl⟩

/-- Settles O9. -/
theorem awaitStartsFreshReceive : Obligations.AwaitStartsFreshReceive := by
  intro s hp
  rw [exec_await, command_rxStart hp]

/-- Settles O10. -/
theorem oversizedPayloadOverflows : Obligations.OversizedPayloadOverflows := by
  intro s hp hf
  rw [exec_send, exec_issue, command_encodeStart_overflows hp hf, command_encodeStart_overflows hp hf]
  exact ⟨rfl, rfl⟩

/-- A value is put together again from its high bits and the low bits below them. -/
theorem append_extractLsb'_of_div {n k : Nat} {hi : BitVec n} {v : BitVec (n + k)} (h : v.toNat / 2 ^ k = hi.toNat) :
    hi ++ v.extractLsb' 0 k = v := by
  apply BitVec.eq_of_toNat_eq
  rw [BitVec.toNat_append, BitVec.extractLsb'_toNat, Nat.shiftRight_zero,
    ← Nat.shiftLeft_add_eq_or_of_lt (Nat.mod_lt _ (Nat.two_pow_pos k)), Nat.shiftLeft_eq, ← h, Nat.div_add_mod']

theorem cmdCode_cases (d : Byte) : d = 0x00#8 ∨ d = 0x01#8 ∨ d = 0x02#8 ∨ d = 0x03#8 ∨ 4 ≤ d.toNat := by bv_omega

theorem cmdCode_ne {d : Byte} (hd : 4 ≤ d.toNat) : d ≠ 0x00#8 ∧ d ≠ 0x01#8 ∧ d ≠ 0x02#8 ∧ d ≠ 0x03#8 := by bv_omega

/-- Every code from 0x04 on is reserved (R64, R65). -/
theorem exec_decodeCmd_reserved {d : Byte} (hd : 4 ≤ d.toNat) (s : State) :
    exec (decodeCmd d) s = .next (reservedCommand d s) := by
  obtain ⟨h0, h1, h2, h3⟩ := cmdCode_ne hd
  have code {c : Byte} (h : c = d) :
      (Host.Outcome.next (reservedCommand c s) : Host.Outcome State Fault Refusal) = .next (reservedCommand d s) := by
    rw [h]
  rw [decodeCmd, if_neg h0, if_neg h1, if_neg h2, if_neg h3]
  split_ifs
  · exact code (append_extractLsb'_of_div (n := 6) (k := 2) (by show d.toNat / 4 = 1; omega))
  · exact code (append_extractLsb'_of_div (n := 5) (k := 3) (by show d.toNat / 8 = 1; omega))
  · exact code (append_extractLsb'_of_div (n := 4) (k := 4) (by show d.toNat / 16 = 1; omega))
  · exact code (append_extractLsb'_of_div (n := 3) (k := 5) (by show d.toNat / 32 = 1; omega))
  · exact code (append_extractLsb'_of_div (n := 2) (k := 6) (by show d.toNat / 64 = 1; omega))
  · exact code (append_extractLsb'_of_div (n := 1) (k := 7) (by show d.toNat / 128 = 1; omega))

theorem exec_wrCmd_reserved {d : Byte} (hd : 4 ≤ d.toNat) (s : State) :
    exec (.wrCmd d) s = .next (reservedCommand d s) := by
  obtain ⟨h0, h1, h2, h3⟩ := cmdCode_ne hd
  show execWrCmd d s = _
  rw [execWrCmd, if_neg h0, if_neg h1, if_neg h2, if_neg h3]

/-- Settles O13, code by code. -/
theorem writeToCmdRunsTheCode : Obligations.WriteToCmdRunsTheCode := by
  intro s d
  rcases cmdCode_cases d with rfl | rfl | rfl | rfl | hd
  · rfl
  · rfl
  · rfl
  · rfl
  · rw [exec_wrCmd_reserved hd, exec_decodeCmd_reserved hd]

/-- Settles O14, from the commands' own equations. -/
theorem writeToCmdWhileIdle : Obligations.WriteToCmdWhileIdle := by
  intro s d hp
  have transmit (h : d = 0x01#8 ∨ d = 0x03#8) : exec (.wrCmd d) s = .next (command d encodeStart s) := by
    rcases h with rfl | rfl <;> rfl
  refine ⟨?_, fun hd hf => ?_, fun hd hf => ?_, ?_, fun hd => ?_⟩
  · rintro rfl
    rfl
  · rw [transmit hd, command_encodeStart_fits hp hf]
  · rw [transmit hd, command_encodeStart_overflows hp hf]
  · rintro rfl
    exact congrArg _ (command_rxStart hp _)
  · rw [exec_wrCmd_reserved hd, reservedCommand_idle hp]

/-! ### Bus writes (R44, R45) -/

/-- A bus write while busy, to any address but STATUS (R45). -/
theorem busWrite_busy {s : State} (hp : s.phase ≠ .idle) {a : Addr} (ha : a ≠ 0x01#5) (d : Byte) :
    busWrite a d s = if a = 0x00#5 ∧ d ≠ 0x00#8 then { s with cmdlost := true } else s := by
  rw [busWrite, if_neg ha]
  by_cases h0 : a = 0x00#5
  · by_cases hd : d = 0x00#8
    · simp [h0, hd]
    · simp [h0, hd, command_busy hp, commandLost]
  · simp [h0, whenIdle_busy hp]

/-- Settles O12. -/
theorem writesWhileBusyAreIgnored : Obligations.WritesWhileBusyAreIgnored := by
  intro s a d hp ha
  have lost (c : Byte) (start : State → State) : command c start s = { s with cmdlost := true } := command_busy hp c start
  rw [exec_decodeWrite, busWrite_busy hp ha, exec_send, exec_await, exec_issue, lost, lost, lost]
  refine ⟨fun h0 hd => ?_, fun h => ?_, rfl, rfl, rfl⟩
  · rw [if_pos ⟨h0, hd⟩]
  · rw [if_neg (by tauto)]

/-- Settles O15: each row is a write while idle. -/
theorem parameterWritesWhileIdle : Obligations.ParameterWritesWhileIdle := by
  intro s d hp
  have idle (f : State → State) :
      (Host.Outcome.next (whenIdle f s) : Host.Outcome State Fault Refusal) = .next (f s) := by rw [whenIdle_idle hp]
  exact ⟨idle _, idle _, idle _, idle _, idle _, idle _, idle _, idle _⟩

/-- Settles O16. -/
theorem statusWriteClearsFlags : Obligations.StatusWriteClearsFlags := fun s d => congrArg _ (writeStatus_eq d s)

/-! ### Register reads (R42) -/

theorem hiByte_ofNat (n : Nat) : hiByte (BitVec.ofNat 16 n) = BitVec.ofNat 8 (n / 256) := by
  apply BitVec.eq_of_toNat_eq
  rw [hiByte, BitVec.extractLsb'_toNat, BitVec.toNat_ofNat, BitVec.toNat_ofNat, Nat.shiftRight_eq_div_pow]
  omega

theorem loByte_ofNat (n : Nat) : loByte (BitVec.ofNat 16 n) = BitVec.ofNat 8 n := by
  apply BitVec.eq_of_toNat_eq
  rw [loByte, BitVec.extractLsb'_toNat, BitVec.toNat_ofNat, BitVec.toNat_ofNat, Nat.shiftRight_zero]
  omega

/-- Settles O18: each row is the record of a register; PCAP's halves are those of CAP - 7. -/
theorem registerReadsHaveNoSideEffect : Obligations.RegisterReadsHaveNoSideEffect := by
  intro s reads
  have hi : reads .rdPcapHi (hiByte (pcapHalf s)) := rfl
  have lo : reads .rdPcapLo (loByte (pcapHalf s)) := rfl
  rw [pcapHalf, hiByte_ofNat] at hi
  rw [pcapHalf, loByte_ofNat] at lo
  exact ⟨rfl, rfl, rfl, rfl, rfl, rfl, rfl, rfl, rfl, rfl, rfl, rfl, rfl, rfl, rfl, rfl, rfl, hi, lo⟩

theorem exec_rdData (s : State) :
    exec .rdData s = .next (dataPortReadEffect (recordRead (dataPortValue s) s)) := rfl

theorem dataPortReadEffect_idle {s : State} (hp : s.phase = .idle) :
    dataPortReadEffect s = { s with ptr := s.ptr + 1#16 } := whenIdle_idle hp advancePtr

theorem dataPortReadEffect_busy {s : State} (hp : s.phase ≠ .idle) : dataPortReadEffect s = s :=
  whenIdle_busy hp advancePtr

/-- Settles O20. -/
theorem dataReadReturnsCellAtPtr : Obligations.DataReadReturnsCellAtPtr := by
  intro s
  refine ⟨fun hp hlt => ?_, fun hp hle => ?_, fun hp => ?_⟩ <;> rw [exec_rdData]
  · have hv : dataPortValue s = bufRead s s.ptr.toNat := if_pos ⟨hp, hlt⟩
    rw [hv, dataPortReadEffect_idle (s := recordRead _ s) hp]
    rfl
  · have hv : dataPortValue s = 0x00#8 := if_neg fun h => absurd h.2 (Nat.not_lt.mpr hle)
    rw [hv, dataPortReadEffect_idle (s := recordRead _ s) hp]
    rfl
  · have hv : dataPortValue s = 0x00#8 := if_neg fun h => hp h.1
    rw [hv, dataPortReadEffect_busy (s := recordRead _ s) hp]
    rfl

/-! ### STATUS and STATE (R21, R26) -/

/-- The bits of the byte STATUS reads as, from its most significant field to its least. -/
theorem statusByte_bits (l d r b : Bool) (c : Cause) :
    let v : Byte := 0#1 ++ BitVec.ofBool l ++ c.code ++ BitVec.ofBool r ++ BitVec.ofBool d ++ BitVec.ofBool b
    v.getLsbD 0 = b ∧ v.getLsbD 1 = d ∧ v.getLsbD 2 = r ∧ v.extractLsb' 3 3 = c.code ∧ v.getLsbD 6 = l ∧
      v.getLsbD 7 = false := by
  revert l d r b
  cases c <;> decide

/-- Settles O21. -/
theorem statusAndStateBits : Obligations.StatusAndStateBits := by
  intro s
  obtain ⟨hbusy, hdone, hresult, hcause, hlost, hzero⟩ :=
    statusByte_bits s.cmdlost s.done (result s) (busy s) s.cause
  refine ⟨?_, hdone, ?_, ?_, hlost, hzero, ?_⟩
  · rw [statusByte, hbusy]
    simp [busy]
  · rw [statusByte, hresult]
    simp [result]
  · rw [statusByte, hcause]
    cases s.cause <;> rfl
  · rw [stateByte]
    cases s.phase <;> cases s.rxst <;> rfl

end Sys2Proof.Machine
end

section
/-! SUPPORT. One edge: the bus part and the engine part together, the output ports, and what an edge keeps or does not see. -/

namespace Sys2Proof.Machine

/-! ### The bus part (R42, R43) -/

theorem hostPart_none {s : State} (h : hostCode s = none) : hostPart s = .next (nextCycle s) := by
  rw [hostPart, h]

theorem hostPart_decodes {s : State} {c : Code} {i : Instr} (hc : hostCode s = some c) (hd : decode c = .ok i) :
    hostPart s = exec i (nextCycle s) := by
  simp only [hostPart, hc, hd]

/-- A transaction on the ports is the bus host's next item. -/
theorem hostCode_of_busPorts {s : State} {p : BusPorts} (h : busPorts s = some p) :
    hostCode s = some (.bus (portsWord p)) := by
  unfold hostCode
  split
  · rename_i q rest hs
    simp [busPorts, hs] at h
  · rw [h]
    rfl

/-- Settles O4: the three cases of the bus part, and the engine's empty part while idle. -/
theorem stepRunsDecodedInstruction : Obligations.StepRunsDecodedInstruction := by
  intro s hr
  refine ⟨fun c i t hc hd ht => ?_, fun hc => ?_, fun t hp ht => ?_⟩
  · exact step_of_hostPart hr ((hostPart_decodes hc hd).trans ht)
  · exact step_of_hostPart hr (hostPart_none hc)
  · rw [step_of_hostPart hr ht, engine_idle hp]

/-- read(S, a) sees none of what an edge uses up. -/
theorem readReg_nextCycle (s : State) (a : Addr) : readReg (nextCycle s) a = readReg s a := rfl

@[simp] theorem dataPortReadEffect_rdLog (s : State) : (dataPortReadEffect s).rdLog = s.rdLog := by
  rw [dataPortReadEffect_eq]

/-- The bus part of an edge with a read on the ports. -/
theorem hostPart_read {s : State} {p : BusPorts} (hp : busPorts s = some p) (hw : p.we = false) :
    ∃ t, hostPart s = .next t ∧ t.rdLog = s.rdLog ++ [readReg s p.addr] := by
  rw [hostPart_decodes (hostCode_of_busPorts hp) (decode_portsWord p), hw, if_neg Bool.false_ne_true, exec_decodeRead]
  refine ⟨_, rfl, ?_⟩
  split_ifs <;> simp [readReg_nextCycle]

/-- Settles O6. -/
theorem readsRecordBusRdata : Obligations.ReadsRecordBusRdata := by
  intro s p hr hp hw
  have hv : busRdata s = readReg s p.addr := by simp [busRdata, hr, hp, hw]
  rw [hv]
  exact ⟨rfl, hostPart_read hp hw⟩

/-! ### The output ports (R40 to R42, R132) -/

theorem txValid_iff {s : State} (hr : (envNow s).rst = false) : txValid s = true ↔ s.phase = .tx := by
  simp [txValid, hr]

theorem rxReady_iff {s : State} (hr : (envNow s).rst = false) :
    rxReady s = true ↔ s.phase = .rx ∧ s.elapsed.toNat < s.tmo.toNat := by
  simp [rxReady, hr]

/-- `tx_data` is 0x00 while no byte is offered. -/
theorem txData_invalid {s : State} (h : txValid s = false) : txData s = 0x00#8 := by simp [txData, h]

/-- `tx_data` is the encoder's byte at TXIDX. -/
theorem txData_of_frameByte {s : State} {b : Byte} (hv : txValid s = true) (hb : frameByte s s.txidx.toNat = .ok b) :
    txData s = b := by
  simp [txData, hv, hb]

/-- Settles O50, port by port. -/
theorem outputPorts : Obligations.OutputPorts := by
  intro s
  refine ⟨fun hr => ?_, fun hr => ⟨txValid_iff hr, rxReady_iff hr, ?_, fun hp => ?_, fun hw => ?_⟩⟩
  · have hv : txValid s = false := by simp [txValid, hr]
    exact ⟨hv, by simp [rxReady, hr], by simp [irq, hr], by simp [busRdata, hr], txData_invalid hv⟩
  · simp [irq, hr]
  · exact txData_invalid (Bool.eq_false_iff.mpr (mt (txValid_iff hr).mp hp))
  · cases hb : busPorts s with
    | none => simp [busRdata, hb]
    | some p => simp [busRdata, hb, hw p hb]

/-! ### Settle and receive edges (R87, R120) -/

/-- Settles O38: the branches of settle_step. -/
theorem settleEdge : Obligations.SettleEdge := by
  intro s t hr hp ht
  have edge : step s = .next (settleStep s t (envNow s).tick) := by
    rw [step_of_hostPart hr ht]
    simp only [engine, hp]
  rw [edge]
  refine ⟨by simp [rxReady, hp], fun hle => ?_, fun hlt hk => ?_, fun hlt hk => ?_⟩
  · rw [settleStep, if_pos hle]
    rfl
  · rw [settleStep, if_neg (Nat.not_le.mpr hlt), if_pos hk]
  · rw [settleStep, if_neg (Nat.not_le.mpr hlt), if_neg (by simp [hk])]

/-- Settles O39: the deadline is the first test of rx_step. -/
theorem deadlineEndsTheReceive : Obligations.DeadlineEndsTheReceive := by
  intro s t hr hp hle ht
  refine ⟨by simp [rxReady, Nat.not_lt.mpr hle], ?_⟩
  rw [step_of_hostPart hr ht]
  simp only [engine, hp, rxStep, if_pos hle]
  rfl

/-! ### What an edge keeps (R45, R58, R80) -/

/-- The encoder's byte depends on the frame's own fields only. -/
theorem frameByte_congr {s t : State} (hl : t.len = s.len) (hc : t.params = s.params) (hb : t.buf = s.buf)
    (he : t.epoch = s.epoch) (hk : t.txck = s.txck) (i : Nat) : frameByte t i = frameByte s i := by
  have hpc : pcap t = pcap s := by rw [pcap, pcap, hc]
  simp only [frameByte]
  rw [hl, hpc, hk, bufRead_congr hb he]

/-- Settles O32: the engine holds, and the bus part touches no field of the frame. -/
theorem stalledByteIsStable : Obligations.StalledByteIsStable := by
  intro s t hr hp hready h hr'
  obtain ⟨hrst, -⟩ | ⟨-, m, hm, he⟩ := step_cases h
  · simp [hr] at hrst
  have ht : t = m := by
    simp only [engine, hp, txStep, hready, Bool.false_eq_true, if_false] at he
    exact (Host.Outcome.next.inj he).symm
  subst ht
  have hf := hostPart_busy_fields (by simp [hp]) hm
  have hv : txValid t = true := (txValid_iff hr').mpr (by simp only [hf, hp])
  have hv' : txValid s = true := (txValid_iff hr).mpr hp
  have hb : frameByte t t.txidx.toNat = frameByte s s.txidx.toNat := by
    rw [frameByte_congr (s := s)] <;> simp only [hf]
  exact ⟨hv, by rw [txData, txData, hv, hv', hb]⟩

/-- Settles O56: neither part of a busy edge writes these fields. -/
theorem runningOperationKeepsItsOperands : Obligations.RunningOperationKeepsItsOperands := by
  intro s t hp hr h
  obtain ⟨hrst, -⟩ | ⟨-, m, hm, he⟩ := step_cases h
  · simp [hr] at hrst
  have hf := hostPart_busy_fields hp hm
  rw [engine_frame he]
  refine ⟨?_, ?_, ?_, ?_, ?_, fun j => bufRead_congr ?_ ?_ j⟩ <;> simp only [hf]

/-! ### What an edge does not see (R41, R123) -/

/-- Neither the bus part nor the reset edge sees the inputs of its own edge. -/
theorem hostPart_env (s : State) (e e' : EnvInput) (later : List EnvInput) :
    hostPart { s with env := e :: later } = hostPart { s with env := e' :: later } := rfl

theorem resetEdge_env (s : State) (e e' : EnvInput) (later : List EnvInput) :
    resetEdge { s with env := e :: later } = resetEdge { s with env := e' :: later } := rfl

/-- The engine reads the inputs of the edge it is given, and of these `tx_ready` in TX, the tick in SETTLE and RX, and the
RX port in RX. -/
theorem engine_env {s : State} (es es' : List EnvInput) (m : State) {e e' : EnvInput} (hrx : s.phase ≠ .rx)
    (hready : e'.txReady = e.txReady) (htick : s.phase = .settle → e'.tick = e.tick) :
    engine { s with env := es } m e = engine { s with env := es' } m e' := by
  cases hp : s.phase with
  | idle => simp only [engine]
  | tx =>
    simp only [engine, hready]
    rfl
  | settle =>
    simp only [engine, htick hp]
    rfl
  | rx => exact absurd hp hrx

/-- Settles O60. -/
theorem rxPortIsUnseenOutsideReceive : Obligations.RxPortIsUnseenOutsideReceive := by
  intro s e e' later hrx hrst hready htick
  cases hr : e.rst with
  | true => rw [step_reset (by simpa [envNow] using hr), step_reset (by simpa [envNow, hrst] using hr), resetEdge_env]
  | false =>
    simp only [step, envNow, hrst, hr, hostPart_env s e e', Bool.false_eq_true, if_false]
    split
    · exact engine_env _ _ _ hrx hready htick
    · rfl
    · rfl

end Sys2Proof.Machine
end

section
/-! SUPPORT. Every edge keeps the invariant: the bus part by what it can do from an idle block (R44 to R46) and while an
operation runs (R45), the engine part phase by phase (R77, R85, R120). From it, the byte on `tx_data` is the frame's. -/

namespace Sys2Proof.Machine

/-! ### BUF and the parameters (R6, R48) -/

/-- The clauses of the invariant about the parameters and BUF, which speak of every phase. -/
structure BlockOk (s : State) : Prop where
  legal : s.params.Legal
  bufWf : Memory.wf s.buf
  bufBound : ∀ c ∈ s.buf, c.1 < pcap s

theorem Inv.blockOk {s : State} (h : Inv s) : BlockOk s := ⟨h.legal, h.bufWf, h.bufBound⟩

theorem BlockOk.congr {s t : State} (h : BlockOk s) (hp : t.params = s.params) (hb : t.buf = s.buf) : BlockOk t where
  legal := hp ▸ h.legal
  bufWf := hb ▸ h.bufWf
  bufBound := by simpa only [pcap, hp, hb] using h.bufBound

@[simp] theorem encodeStart_buf (s : State) : (encodeStart s).buf = s.buf := by
  unfold encodeStart
  split_ifs <;> rfl

@[simp] theorem writeStatus_buf (d : Byte) (s : State) : (writeStatus d s).buf = s.buf := by rw [writeStatus_eq]

/-- A DATA write leaves BUF or writes the cell at PTR, which is below PCAP (R49). -/
theorem dataPortWrite_buf (d : Byte) (s : State) :
    (dataPortWrite d s).buf = s.buf ∨
    s.ptr.toNat < pcap s ∧ (dataPortWrite d s).buf = Memory.write s.buf s.ptr.toNat d := by
  unfold dataPortWrite
  split_ifs with h
  · exact .inr ⟨h, rfl⟩
  · exact .inl rfl

@[simp] theorem dataPortReadEffect_buf (s : State) : (dataPortReadEffect s).buf = s.buf := by
  rw [dataPortReadEffect_eq]

@[simp] theorem hostCommand_buf (v : Bool) (p : List Byte) (s : State) : (hostCommand v p s).buf = s.buf := by
  rw [hostCommand_eq]

/-- The bus part of an edge leaves BUF or writes one cell below PCAP (R48). -/
theorem hostPart_buf {s t : State} (h : hostPart s = .next t) :
    t.buf = s.buf ∨ ∃ i v, i < pcap s ∧ t.buf = Memory.write s.buf i v := by
  by_cases hp : s.phase = .idle
  · rcases hostPart_cases h with ⟨-, rfl⟩ | ⟨p, -, -, rfl⟩ | ⟨p, -, -, rfl⟩ | ⟨v, q, rfl⟩
    · exact .inl rfl
    · left
      split_ifs <;> simp
    · rcases busWrite_idle (s := nextCycle s) hp p.addr p.wdata with
        ⟨-, h⟩ | ⟨-, -, h⟩ | ⟨-, -, h⟩ | ⟨-, -, h⟩ | ⟨-, -, h⟩ | ⟨-, h⟩ | ⟨_, _, _, _, h⟩ <;> rw [h]
      · exact .inl (writeStatus_buf _ _)
      · exact .inl rfl
      · exact .inl (encodeStart_buf _)
      · exact .inl rfl
      · exact .inl rfl
      · exact (dataPortWrite_buf _ _).imp id fun ⟨hlt, h⟩ => ⟨_, _, hlt, h⟩
      · exact .inl rfl
    · exact .inl (by simp)
  · have hf := hostPart_busy_fields hp h
    exact .inl (by simp only [hf])

theorem engine_buf {s m t : State} {e : EnvInput} (h : engine s m e = .next t) : t.buf = m.buf :=
  (congrArg State.buf (engine_frame h) :)

/-- Settles O54: a reset empties the list, the bus part writes at most one cell, and the engine none. -/
theorem everyEdgeKeepsBufCanonical : Obligations.EveryEdgeKeepsBufCanonical := by
  intro s t hw h
  rcases step_cases h with ⟨-, rfl⟩ | ⟨-, m, hm, he⟩
  · rw [resetEdge_buf]
    exact Memory.nil_wf
  · rw [engine_buf he]
    rcases hostPart_buf hm with hb | ⟨i, v, -, hb⟩ <;> rw [hb]
    · exact hw
    · exact Memory.write_wf hw i v

/-- The bus part keeps the parameters legal and BUF canonical, within PCAP. -/
theorem hostPart_blockOk {s t : State} (hs : BlockOk s) (h : hostPart s = .next t) : BlockOk t := by
  have hp := hostPart_params h
  rcases hostPart_buf h with hb | ⟨i, v, hi, hb⟩
  · exact hs.congr hp hb
  · have hpc : pcap t = pcap s := by simp only [pcap, hp]
    refine ⟨hp ▸ hs.legal, hb ▸ Memory.write_wf hs.bufWf i v, fun c hc => ?_⟩
    rw [hpc]
    rcases Memory.mem_write (hb ▸ hc) with rfl | hc
    · exact hi
    · exact hs.bufBound c hc

/-! ### The invariant, phase by phase -/

theorem BlockOk.inv_idle {s : State} (h : BlockOk s) (hp : s.phase = .idle) (hc : causeFits s.lastcmd s.cause = true) :
    Inv s := inv_of_idle hp h.legal h.bufWf h.bufBound hc

/-- CAUSE = SUCCESS fits every command that can run (R128). -/
theorem causeFits_success_of_running {c : Byte} (h : c = 0x01#8 ∨ c = 0x02#8 ∨ c = 0x03#8) :
    causeFits c .success = true := by
  rcases h with rfl | rfl | rfl <;> rfl

theorem BlockOk.inv_tx {s : State} (h : BlockOk s) (hp : s.phase = .tx) (hd : s.done = false) (hc : s.cause = .success)
    (cmd : s.lastcmd = 0x01#8 ∨ s.lastcmd = 0x03#8) (fits : s.len.toNat ≤ pcap s)
    (index : s.txidx.toNat ≤ s.len.toNat + 6) (fold : s.txck = xorfold ((payload s).take (payloadSent s)))
    (sum : s.len.toNat + 4 < s.txidx.toNat → s.cksum = xorfold (payload s)) : Inv s where
  legal := h.legal
  bufWf := h.bufWf
  bufBound := h.bufBound
  causeOk := hc ▸ causeFits_success_of_running (cmd.imp id .inr)
  busyClear _ := ⟨hd, hc⟩
  txCommand _ := cmd
  txFits _ := fits
  txIndex _ := index
  txFold _ := fold
  txSum _ := sum
  settleCommand := by simp [hp]
  settleCount := by simp [hp]
  rxCommand := by simp [hp]
  rxDeadline := by simp [hp]
  rxLive := by simp [hp]
  rxCount := by simp [hp]
  rxSeen := by simp [hp]

theorem BlockOk.inv_settle {s : State} (h : BlockOk s) (hp : s.phase = .settle) (hd : s.done = false)
    (hc : s.cause = .success) (cmd : s.lastcmd = 0x03#8) (count : s.setcnt.toNat ≤ s.settle.toNat) : Inv s where
  legal := h.legal
  bufWf := h.bufWf
  bufBound := h.bufBound
  causeOk := hc ▸ causeFits_success_of_running (.inr (.inr cmd))
  busyClear _ := ⟨hd, hc⟩
  txCommand := by simp [hp]
  txFits := by simp [hp]
  txIndex := by simp [hp]
  txFold := by simp [hp]
  txSum := by simp [hp]
  settleCommand _ := cmd
  settleCount _ := count
  rxCommand := by simp [hp]
  rxDeadline := by simp [hp]
  rxLive := by simp [hp]
  rxCount := by simp [hp]
  rxSeen := by simp [hp]

theorem BlockOk.inv_rx {s : State} (h : BlockOk s) (hp : s.phase = .rx) (hd : s.done = false) (hc : s.cause = .success)
    (cmd : s.lastcmd = 0x02#8 ∨ s.lastcmd = 0x03#8) (deadline : s.elapsed.toNat ≤ s.tmo.toNat)
    (live : s.rxst ≠ .terminal) (count : s.rxst = .payload → s.rxcnt.toNat ≤ s.rxlen.toNat)
    (seen : s.rxst = .waitTrailer → s.discseen = true) : Inv s where
  legal := h.legal
  bufWf := h.bufWf
  bufBound := h.bufBound
  causeOk := hc ▸ causeFits_success_of_running (.inr cmd)
  busyClear _ := ⟨hd, hc⟩
  txCommand := by simp [hp]
  txFits := by simp [hp]
  txIndex := by simp [hp]
  txFold := by simp [hp]
  txSum := by simp [hp]
  settleCommand := by simp [hp]
  settleCount := by simp [hp]
  rxCommand _ := cmd
  rxDeadline _ := deadline
  rxLive _ := live
  rxCount _ := count
  rxSeen _ := seen

/-- A fresh receive, started by AWAIT or after a settle (R84). -/
theorem BlockOk.inv_rxStart {s : State} (h : BlockOk s) (hd : s.done = false) (hc : s.cause = .success)
    (cmd : s.lastcmd = 0x02#8 ∨ s.lastcmd = 0x03#8) : Inv (rxStart s) :=
  (h.congr (t := rxStart s) rfl rfl).inv_rx rfl hd hc cmd (Nat.zero_le _) (by simp) (by simp) (by simp)

/-- A command SEND or ISSUE, accepted: a fresh transmit, or the completion with OVERFLOW (R72, R75). -/
theorem BlockOk.inv_encodeStart {s : State} (h : BlockOk s) (hd : s.done = false) (hc : s.cause = .success)
    (cmd : s.lastcmd = 0x01#8 ∨ s.lastcmd = 0x03#8) : Inv (encodeStart s) := by
  by_cases hf : s.len.toNat + 7 ≤ s.params.cap
  · rw [encodeStart_fits hf]
    refine BlockOk.inv_tx (h.congr rfl rfl) rfl hd hc cmd ?_ (Nat.zero_le _) ?_ ?_
    · show s.len.toNat ≤ s.params.cap - 7
      omega
    · simp [payloadSent, xorfold]
    · simp
  · rw [encodeStart_overflows (by omega)]
    refine (h.congr (t := complete .overflow s) rfl rfl).inv_idle rfl ?_
    rcases cmd with hl | hl <;> simp [hl, causeFits]

/-! ### The bus part -/

/-- An idle block that still has its LASTCMD and CAUSE keeps the invariant. -/
theorem Inv.idle_congr {s t : State} (h : Inv s) (hb : BlockOk t) (hp : t.phase = .idle) (hl : t.lastcmd = s.lastcmd)
    (hc : t.cause = s.cause) : Inv t := hb.inv_idle hp (by rw [hl, hc]; exact h.causeOk)

/-- The invariant does not see CMDLOST, the environment or the records, and DONE only while an operation runs. -/
theorem Inv.unseen {s : State} (h : Inv s) {done cmdlost validationError : Bool} {script : List HostOp}
    {env : List EnvInput} {edge : Nat} {txLog rxLog rdLog : List Byte} (hd : s.phase ≠ .idle → done = false) :
    Inv { s with done, cmdlost, script, env, validationError, edge, txLog, rxLog, rdLog } :=
  ⟨h.legal, h.bufWf, h.bufBound, h.causeOk, fun hp => ⟨hd hp, (h.busyClear hp).2⟩, h.txCommand, h.txFits, h.txIndex,
    h.txFold, h.txSum, h.settleCommand, h.settleCount, h.rxCommand, h.rxDeadline, h.rxLive, h.rxCount, h.rxSeen⟩

/-- A bus write to an idle block: it stays idle with the code and cause it had, or a code is accepted. -/
theorem busWrite_keeps_inv {s : State} (h : Inv s) (hp : s.phase = .idle) {a : Addr} {d : Byte}
    (hb : BlockOk (busWrite a d s)) : Inv (busWrite a d s) := by
  have ha : BlockOk (accept d s) := h.blockOk.congr rfl rfl
  rcases busWrite_idle hp a d with
    ⟨-, e⟩ | ⟨-, -, e⟩ | ⟨-, hd, e⟩ | ⟨-, rfl, e⟩ | ⟨-, ⟨h0, h1, h2, h3⟩, e⟩ | ⟨-, e⟩ | ⟨_, _, _, _, e⟩ <;>
    rw [e] at hb ⊢
  · rw [writeStatus_eq] at hb ⊢
    exact h.idle_congr hb hp rfl rfl
  · exact h
  · exact ha.inv_encodeStart rfl rfl hd
  · exact ha.inv_rxStart rfl rfl (.inl rfl)
  · exact hb.inv_idle rfl (by simp [causeFits, h0, h1, h2, h3])
  · rw [dataPortWrite_eq] at hb ⊢
    exact h.idle_congr hb hp rfl rfl
  · exact h.idle_congr hb hp rfl rfl

/-- The bus part keeps the invariant: an idle block's as its item says, a busy block's because it leaves all the
invariant speaks of but DONE, which stays 0. -/
theorem hostPart_keeps_inv {s t : State} (h : Inv s) (ht : hostPart s = .next t) : Inv t := by
  have hb := hostPart_blockOk h.blockOk ht
  by_cases hp : s.phase = .idle
  · rcases hostPart_cases ht with ⟨-, rfl⟩ | ⟨p, -, -, rfl⟩ | ⟨p, -, -, rfl⟩ | ⟨v, q, rfl⟩
    · exact h.idle_congr hb hp rfl rfl
    · rw [dataPortReadEffect_eq] at hb ⊢
      split_ifs at hb ⊢ <;> exact h.idle_congr hb hp rfl rfl
    · exact busWrite_keeps_inv (h.idle_congr (t := nextCycle s) (h.blockOk.congr rfl rfl) hp rfl rfl) hp hb
    · rw [hostCommand_eq] at hb ⊢
      exact h.idle_congr hb hp rfl rfl
  · obtain ⟨ht, hd⟩ := hostPart_busy hp ht
    have done : t.done = false := by
      rcases hd with hd | hd
      · rw [hd, (h.busyClear hp).1]
      · exact hd
    rw [ht]
    exact h.unseen fun _ => done

/-- While an operation runs the engine reads nothing the bus part writes: it may as well read the state after it. -/
theorem engine_after_hostPart {s m : State} (hp : s.phase ≠ .idle) (hm : hostPart s = .next m) (e : EnvInput) :
    engine s m e = engine m m e := by
  obtain ⟨h, -⟩ := hostPart_busy hp hm
  generalize m.done = d, m.cmdlost = l, m.rdLog = r, m.script = p, m.validationError = v at h
  subst h
  rfl

/-! ### Transmit -/

theorem payload_getElem? {s : State} {i : Nat} (hi : i < s.len.toNat) : (payload s)[i]? = some (bufRead s i) := by
  simp [payload, hi]

/-- The payload's part already sent, one byte on. -/
theorem payload_take_succ {s : State} {i : Nat} (hi : i < s.len.toNat) :
    (payload s).take (i + 1) = (payload s).take i ++ [bufRead s i] := by
  rw [List.take_add_one, payload_getElem? hi]
  rfl

theorem payload_take_all (s : State) : (payload s).take s.len.toNat = payload s :=
  List.take_of_length_le (payload_length s).le

theorem frameByte_payload {s : State} {i : Nat} (h4 : 4 ≤ i) (hi : i < 4 + s.len.toNat) (hl : s.len.toNat ≤ pcap s) :
    frameByte s i = .ok (bufRead s (i - 4)) := by
  rw [frameByte, if_neg (by omega), if_neg (by omega), if_neg (by omega), if_neg (by omega), if_pos hi,
    if_pos (by omega)]

theorem frameByte_checksum (s : State) : frameByte s (4 + s.len.toNat) = .ok s.txck := by
  rw [frameByte, if_neg (by omega), if_neg (by omega), if_neg (by omega), if_neg (by omega), if_neg (by omega),
    if_pos rfl]

/-- At the checksum's index TXCK is the fold of the whole payload (R78). -/
theorem Inv.txck_at_checksum {s : State} (h : Inv s) (hp : s.phase = .tx) (hi : 4 + s.len.toNat ≤ s.txidx.toNat) :
    s.txck = xorfold (payload s) := by
  have hs : payloadSent s = s.len.toNat := by
    unfold payloadSent
    omega
  rw [h.txFold hp, hs, payload_take_all]

/-- TXCK after the transfer of the byte at TXIDX is the fold of the payload bytes sent then (R78). -/
theorem Inv.txck_advance {s : State} {b : Byte} (h : Inv s) (hp : s.phase = .tx)
    (hb : frameByte s s.txidx.toNat = .ok b) :
    (if 4 ≤ s.txidx.toNat ∧ s.txidx.toNat < 4 + s.len.toNat then s.txck ^^^ b else s.txck) =
      xorfold ((payload s).take (min (s.txidx.toNat + 1 - 4) s.len.toNat)) := by
  have fold := h.txFold hp
  unfold payloadSent at fold
  split_ifs with hi
  · obtain ⟨h4, hn⟩ := hi
    rw [frameByte_payload h4 hn (h.txFits hp)] at hb
    obtain rfl := Except.ok.inj hb
    have now : min (s.txidx.toNat - 4) s.len.toNat = s.txidx.toNat - 4 := by omega
    have next : min (s.txidx.toNat + 1 - 4) s.len.toNat = s.txidx.toNat - 4 + 1 := by omega
    rw [next, payload_take_succ (by omega), xorfold_snoc, fold, now]
  · have same : min (s.txidx.toNat + 1 - 4) s.len.toNat = min (s.txidx.toNat - 4) s.len.toNat := by omega
    rw [same, fold]

/-- CKSUM after the transfer of the byte at TXIDX, once the checksum is out (R78). -/
theorem Inv.cksum_advance {s : State} {b : Byte} (h : Inv s) (hp : s.phase = .tx)
    (hb : frameByte s s.txidx.toNat = .ok b) (hi : s.len.toNat + 4 < s.txidx.toNat + 1) :
    (if s.txidx.toNat = 4 + s.len.toNat then b else s.cksum) = xorfold (payload s) := by
  split_ifs with he
  · rw [he, frameByte_checksum] at hb
    rw [← Except.ok.inj hb, h.txck_at_checksum hp he.ge]
  · exact h.txSum hp (by omega)

/-- The transfer of a byte keeps the invariant. -/
theorem txTransfer_keeps_inv {s : State} {b : Byte} (h : Inv s) (hp : s.phase = .tx)
    (hb : frameByte s s.txidx.toNat = .ok b) : Inv (txTransfer s (recordTx b s) b) := by
  obtain ⟨hd, hc⟩ := h.busyClear (by simp [hp])
  by_cases hl : s.txidx.toNat = 6 + s.len.toNat
  · rw [txTransfer_last hl]
    split_ifs with h1
    · refine (h.blockOk.congr (t := complete .success (recordTx b s)) rfl rfl).inv_idle rfl ?_
      exact causeFits_success_of_running (.inl h1)
    · exact (h.blockOk.congr (t := settleStart (recordTx b s)) rfl rfl).inv_settle rfl hd hc
        ((h.txCommand hp).resolve_left h1) (Nat.zero_le _)
  · have hi := h.txIndex hp
    have succ : (s.txidx + 1#17).toNat = s.txidx.toNat + 1 := by bv_omega
    rw [txTransfer_other hl]
    refine BlockOk.inv_tx (h.blockOk.congr rfl rfl) hp hd hc (h.txCommand hp) (h.txFits hp) ?_ ?_ ?_
    · show (s.txidx + 1#17).toNat ≤ s.len.toNat + 6
      omega
    · simp only [payloadSent, succ, recordTx_fields]
      exact h.txck_advance hp hb
    · simp only [succ, recordTx_fields]
      exact h.cksum_advance hp hb

theorem txStep_keeps_inv {s t : State} {r : Bool} (h : Inv s) (hp : s.phase = .tx) (ht : txStep s s r = .next t) : Inv t := by
  rcases txStep_cases ht with ⟨-, rfl⟩ | ⟨-, b, hb, rfl⟩
  · exact h
  · exact txTransfer_keeps_inv h hp hb

/-! ### Settle -/

theorem settleStep_keeps_inv {s : State} (h : Inv s) (hp : s.phase = .settle) (k : Bool) : Inv (settleStep s s k) := by
  obtain ⟨hd, hc⟩ := h.busyClear (by simp [hp])
  unfold settleStep
  split_ifs with hle
  · exact h.blockOk.inv_rxStart hd hc (.inr (h.settleCommand hp))
  · refine BlockOk.inv_settle (h.blockOk.congr rfl rfl) hp hd hc (h.settleCommand hp) ?_
    show (s.setcnt + 1#16).toNat ≤ s.settle.toNat
    bv_omega
  · exact h

/-! ### Receive -/

/-- Only the decoder's clauses speak of the decoder's fields. -/
theorem Inv.decoder {s : State} (h : Inv s) (hp : s.phase = .rx) {r : RxState} {len : Half} {cnt : Wide} {d : Byte}
    {seen : Bool} (live : r ≠ .terminal) (count : r = .payload → cnt.toNat ≤ len.toNat)
    (captured : r = .waitTrailer → seen = true) :
    Inv { s with rxst := r, rxlen := len, rxcnt := cnt, disc := d, discseen := seen } :=
  have ⟨hd, hc⟩ := h.busyClear (by simp [hp])
  BlockOk.inv_rx (h.blockOk.congr rfl rfl) hp hd hc (h.rxCommand hp) (h.rxDeadline hp) live count captured

/-- A receive can end with the cause a discriminator selects, or at the deadline (R128). -/
theorem causeFits_of_receive {code : Byte} {c : Cause} (h : code = 0x02#8 ∨ code = 0x03#8)
    (hc : c ≠ .overflow ∧ c ≠ .badCmd) : causeFits code c = true := by
  rcases h with rfl | rfl <;> simp [causeFits, hc]

theorem causeOf_receive (d : Byte) : causeOf d ≠ .overflow ∧ causeOf d ≠ .badCmd := by
  unfold causeOf
  split_ifs <;> decide

theorem countTick_keeps_inv {s : State} (h : Inv s) (hp : s.phase = .rx) (hlt : s.elapsed.toNat < s.tmo.toNat) (k : Bool) :
    Inv (countTick s s k) := by
  obtain ⟨hd, hc⟩ := h.busyClear (by simp [hp])
  unfold countTick
  split_ifs
  · refine BlockOk.inv_rx (h.blockOk.congr rfl rfl) hp hd hc (h.rxCommand hp) ?_ (h.rxLive hp) (h.rxCount hp)
      (h.rxSeen hp)
    show (s.elapsed + 1#16).toNat ≤ s.tmo.toNat
    bv_omega
  · exact h

/-- The decoder's step keeps the invariant, an arm for each of its states. -/
theorem delta_keeps_inv {s t : State} {b : Byte} (h : Inv s) (hp : s.phase = .rx) (ht : delta s s b = .next t) :
    Inv t := by
  unfold delta at ht
  cases hr : s.rxst <;> rw [hr] at ht <;> simp only at ht
  case waitSync1 =>
    cases ht
    split_ifs
    · exact h.decoder hp (by decide) (by simp) (by simp)
    · exact h
  case waitSync2 =>
    cases ht
    split_ifs <;> exact h.decoder hp (by decide) (by simp) (by simp)
  case lenHigh =>
    cases ht
    exact h.decoder hp (by decide) (by simp) (by simp)
  case lenLow =>
    cases ht
    exact h.decoder hp (by decide) (fun _ => Nat.zero_le _) (by simp)
  case payload =>
    cases ht
    rw [payloadByte_eq, hr]
    refine h.decoder hp ?_ ?_ ?_
    · split_ifs <;> decide
    · split_ifs with hc
      · simp
      · exact fun _ => by omega
    · simp
  case waitTrailer =>
    split_ifs at ht
    · rw [exec_decodeDisc] at ht
      cases ht
      exact (h.blockOk.congr (t := frameEnd (causeOf s.disc) s) rfl rfl).inv_idle rfl
        (causeFits_of_receive (h.rxCommand hp) (causeOf_receive _))
    · cases ht
      exact h
  case terminal => exact absurd hr (h.rxLive hp)

/-- The decoder reads none of what the same edge's tick and consumption write. -/
theorem delta_after_tick (s : State) (b : Byte) (k : Bool) :
    delta s (recordRx b (countTick s s k)) b =
      delta (recordRx b (countTick s s k)) (recordRx b (countTick s s k)) b := by
  cases k <;> rfl

theorem rxStep_keeps_inv {s t : State} {rx : Option Byte} {k : Bool} (h : Inv s) (hp : s.phase = .rx)
    (ht : rxStep s s rx k = .next t) : Inv t := by
  rcases rxStep_cases ht with ⟨-, rfl⟩ | ⟨hlt, -, rfl⟩ | ⟨hlt, b, -, hd⟩
  · exact (h.blockOk.congr (t := complete .timeout s) rfl rfl).inv_idle rfl
      (causeFits_of_receive (h.rxCommand hp) (by simp))
  · exact countTick_keeps_inv h hp hlt k
  · have htick := countTick_keeps_inv h hp hlt k
    have hpt : (countTick s s k).phase = .rx := by rw [countTick_eq]; exact hp
    have hrec : Inv (recordRx b (countTick s s k)) := htick.unseen fun hp => (htick.busyClear hp).1
    rw [delta_after_tick] at hd
    exact delta_keeps_inv hrec hpt hd

/-! ### The edge -/

theorem engine_keeps_inv {s t : State} {e : EnvInput} (h : Inv s) (ht : engine s s e = .next t) : Inv t := by
  unfold engine at ht
  cases hp : s.phase <;> rw [hp] at ht <;> simp only at ht
  case idle =>
    cases ht
    exact h
  case tx => exact txStep_keeps_inv h hp ht
  case settle =>
    cases ht
    exact settleStep_keeps_inv h hp e.tick
  case rx => exact rxStep_keeps_inv h hp ht

theorem resetEdge_keeps_inv {s : State} (h : Inv s) : Inv (resetEdge s) := by
  refine inv_of_idle ?_ ?_ ?_ ?_ ?_
  · exact (congrArg State.phase (resetEdge_eq s) :)
  · rw [resetEdge_params]
    exact h.legal
  · rw [resetEdge_buf]
    exact Memory.nil_wf
  · simp
  · rw [resetEdge_eq]
    rfl

/-- Settles O52: a reset gives an idle block, the bus part keeps the invariant, and so does the engine, which may be taken
to start from the state the bus part leaves. -/
theorem everyEdgeKeepsTheInvariant : Obligations.EveryEdgeKeepsTheInvariant := by
  intro s t h ht
  rcases step_cases ht with ⟨-, rfl⟩ | ⟨-, m, hm, he⟩
  · exact resetEdge_keeps_inv h
  · have hinv := hostPart_keeps_inv h hm
    by_cases hp : s.phase = .idle
    · rw [engine_idle hp] at he
      cases he
      exact hinv
    · rw [engine_after_hostPart hp hm] at he
      exact engine_keeps_inv hinv he

/-! ### The byte on `tx_data` (R40, R71, R76) -/

theorem frameByte_end1 (s : State) : frameByte s (5 + s.len.toNat) = .ok end1 := by
  rw [frameByte, if_neg (by omega), if_neg (by omega), if_neg (by omega), if_neg (by omega), if_neg (by omega),
    if_neg (by omega), if_pos rfl]

theorem frameByte_end2 (s : State) : frameByte s (6 + s.len.toNat) = .ok end2 := by
  rw [frameByte, if_neg (by omega), if_neg (by omega), if_neg (by omega), if_neg (by omega), if_neg (by omega),
    if_neg (by omega), if_neg (by omega), if_pos rfl]

/-- The frame that carries a block's payload: LEN is its length. -/
theorem frameOf_payload (s : State) :
    frameOf (payload s) =
      [sync1, sync2, hiByte s.len, loByte s.len] ++ (payload s ++ [xorfold (payload s), end1, end2]) := by
  have hn : BitVec.ofNat 16 (payload s).length = s.len := by simp
  rw [frameOf, hn, List.append_assoc]

/-- The frame after its header. -/
theorem frameOf_getElem?_add_four (s : State) (k : Nat) :
    (frameOf (payload s))[4 + k]? = (payload s ++ [xorfold (payload s), end1, end2])[k]? := by
  rw [frameOf_payload, List.getElem?_append_right (Nat.le_add_right 4 k)]
  exact congrArg _ (Nat.add_sub_cancel_left 4 k)

/-- The frame after its payload. -/
theorem frameOf_getElem?_trailer (s : State) (k : Nat) :
    (frameOf (payload s))[4 + (s.len.toNat + k)]? = [xorfold (payload s), end1, end2][k]? := by
  rw [frameOf_getElem?_add_four, List.getElem?_append_right (by simp), payload_length, Nat.add_sub_cancel_left]

/-- The encoder's byte at an index of the frame is the frame's, if TXCK is the payload's fold at the checksum. -/
theorem frameByte_eq_frameOf {s : State} {i : Nat} (hi : i ≤ s.len.toNat + 6) (hl : s.len.toNat ≤ pcap s)
    (hk : i = 4 + s.len.toNat → s.txck = xorfold (payload s)) :
    ∃ b, frameByte s i = .ok b ∧ (frameOf (payload s))[i]? = some b := by
  by_cases h4 : i < 4
  · rw [frameOf_payload]
    interval_cases i <;> exact ⟨_, rfl, rfl⟩
  by_cases hn : i < 4 + s.len.toNat
  · obtain ⟨k, rfl⟩ := Nat.exists_eq_add_of_le (Nat.not_lt.mp h4)
    have hkn : k < s.len.toNat := by omega
    refine ⟨_, frameByte_payload (Nat.le_add_right 4 k) hn hl, ?_⟩
    rw [frameOf_getElem?_add_four, List.getElem?_append_left (by simpa using hkn), payload_getElem? hkn,
      Nat.add_sub_cancel_left]
  · have trailer : i = 4 + s.len.toNat ∨ i = 5 + s.len.toNat ∨ i = 6 + s.len.toNat := by omega
    rcases trailer with rfl | rfl | rfl
    · exact ⟨_, frameByte_checksum s, by rw [hk rfl]; exact frameOf_getElem?_trailer s 0⟩
    · refine ⟨_, frameByte_end1 s, ?_⟩
      rw [show 5 + s.len.toNat = 4 + (s.len.toNat + 1) by omega]
      exact frameOf_getElem?_trailer s 1
    · refine ⟨_, frameByte_end2 s, ?_⟩
      rw [show 6 + s.len.toNat = 4 + (s.len.toNat + 2) by omega]
      exact frameOf_getElem?_trailer s 2

/-- Settles O35: in TX the invariant bounds the index and makes TXCK the checksum. -/
theorem offeredByteIsOfTheFrame : Obligations.OfferedByteIsOfTheFrame := by
  intro s h hr hp
  have hv := (txValid_iff hr).mpr hp
  obtain ⟨b, hb, hf⟩ :=
    frameByte_eq_frameOf (h.txIndex hp) (h.txFits hp) (fun hi => h.txck_at_checksum hp hi.ge)
  exact ⟨hv, by rw [hf, txData_of_frameByte hv hb]⟩

end Sys2Proof.Machine
end

section
/-! SUPPORT. The payload buffer's way in and out: what a DATA write stores and that nothing else stores (R48, R49), the
script that loads a payload (R70), and the frame that goes out of it on the TX port (R79). -/

namespace Sys2Proof.Machine

/-! ### The frame on the TX port (R77, R79) -/

/-- The transfer of the frame's byte at TXIDX makes the bytes so far one more of the frame. -/
theorem frameOf_take_succ {s : State} {b : Byte} (h : Inv s) (hp : s.phase = .tx)
    (hb : frameByte s s.txidx.toNat = .ok b) :
    (frameOf (payload s)).take s.txidx.toNat ++ [b] = (frameOf (payload s)).take (s.txidx.toNat + 1) := by
  obtain ⟨b', hb', hf⟩ :=
    frameByte_eq_frameOf (h.txIndex hp) (h.txFits hp) (fun hi => h.txck_at_checksum hp hi.ge)
  obtain rfl := Except.ok.inj (hb.symm.trans hb')
  rw [List.take_add_one, hf]
  rfl

/-- A transmit edge's engine part: the bytes so far stay a beginning of the frame, or the frame is whole and PHASE has
left TX. -/
theorem txStep_sends {s t : State} {r : Bool} {before : List Byte} (h : Inv s) (hp : s.phase = .tx)
    (ht : txStep s s r = .next t) (hlog : s.txLog = before ++ (frameOf (payload s)).take s.txidx.toNat) :
    (t.phase = .tx ∧ payload t = payload s ∧ t.txLog = before ++ (frameOf (payload s)).take t.txidx.toNat) ∨
    (t.phase ≠ .tx ∧ t.txLog = before ++ frameOf (payload s) ∧ t.cksum = xorfold (payload s)) := by
  rcases txStep_cases ht with ⟨-, rfl⟩ | ⟨-, b, hb, rfl⟩
  · exact .inl ⟨hp, rfl, hlog⟩
  have sent : s.txLog ++ [b] = before ++ (frameOf (payload s)).take (s.txidx.toNat + 1) := by
    rw [hlog, List.append_assoc, frameOf_take_succ h hp hb]
  by_cases hl : s.txidx.toNat = 6 + s.len.toNat
  · have whole : (frameOf (payload s)).take (s.txidx.toNat + 1) = frameOf (payload s) :=
      List.take_of_length_le (by rw [frameOf_length, payload_length]; omega)
    have sum := h.txSum hp (by omega)
    rw [whole] at sent
    rw [txTransfer_last hl]
    split_ifs <;> exact .inr ⟨by simp, sent, sum⟩
  · have succ : (s.txidx + 1#17).toNat = s.txidx.toNat + 1 := by
      have := h.txIndex hp
      bv_omega
    rw [txTransfer_other hl]
    exact .inl ⟨hp, rfl, by rw [succ]; exact sent⟩

/-- Settles O36: the bus part touches no field of the frame, and the engine part may be taken to start after it. -/
theorem frameGoesOutWhole : Obligations.FrameGoesOutWhole := by
  intro s t before h hr hp ht hlog
  obtain ⟨hrst, -⟩ | ⟨-, m, hm, he⟩ := step_cases ht
  · simp [hr] at hrst
  have hbusy : s.phase ≠ .idle := by simp [hp]
  have hf := hostPart_busy_fields hbusy hm
  have hpm : m.phase = .tx := by simp only [hf, hp]
  have hpay : payload m = payload s := by apply payload_congr <;> simp only [hf]
  rw [engine_after_hostPart hbusy hm] at he
  simp only [engine, hpm] at he
  rw [← hpay]
  exact txStep_sends (hostPart_keeps_inv h hm) hpm he (by simp only [hf, hpay, hlog])

/-! ### What stores in BUF (R48, R49) -/

/-- Settles O19: the row is `dataPortWrite` while idle and nothing while busy (R45). -/
theorem dataWriteStoresAtPtr : Obligations.DataWriteStoresAtPtr := by
  intro s d
  have row : exec (.wrData d) s = .next (whenIdle (dataPortWrite d) s) := rfl
  rw [row]
  refine ⟨fun hp => ?_, fun hp => by rw [whenIdle_busy hp]⟩
  exact ⟨dataPortWrite d s, by rw [whenIdle_idle hp], dataPortWrite_eq d s, bufRead_dataPortWrite d s⟩

/-- A bus write to any address but DATA leaves BUF. -/
theorem busWrite_buf {a : Addr} (ha : a ≠ 0x06#5) (d : Byte) (s : State) : (busWrite a d s).buf = s.buf := by
  by_cases hp : s.phase = .idle
  · rcases busWrite_idle hp a d with
      ⟨-, h⟩ | ⟨-, -, h⟩ | ⟨-, -, h⟩ | ⟨-, -, h⟩ | ⟨-, -, h⟩ | ⟨h6, -⟩ | ⟨_, _, _, _, h⟩
    · rw [h, writeStatus_buf]
    · rw [h]
    · rw [h, encodeStart_buf]
      rfl
    · rw [h]
      rfl
    · rw [h]
      rfl
    · exact absurd h6 ha
    · rw [h]
  · by_cases h1 : a = 0x01#5
    · have h : busWrite a d s = writeStatus d s := if_pos h1
      rw [h, writeStatus_buf]
    · rw [busWrite_busy hp h1]
      split_ifs <;> rfl

/-- Settles O22: of what an instruction can do, only a bus write can change the list of written cells, and only the one
to DATA does; the contents of unwritten cells are those of the epoch, which no instruction changes. -/
theorem onlyDataWritesChangeBuf : Obligations.OnlyDataWritesChangeBuf := by
  intro i s t hi h
  obtain ⟨-, -, -, -, -, hepoch, -⟩ := instructionsLeaveTheEngineRecords i s t h
  refine bufRead_congr ?_ hepoch
  cases exec_effect h with
  | nothing | reads _ | endsFrame _ => rfl
  | readsData _ => exact dataPortReadEffect_buf _
  | commands c hs => rw [command_eq hs]
  | @writes a d hw _ =>
    refine busWrite_buf ?_ d s
    rintro rfl
    exact hi d hw
  | hosts v p => exact hostCommand_buf v p s

/-! ### A script of writes to an idle block (R43, R70) -/

/-- The block is idle, `ops` is what the bus host still does, and the next k edges bring no `rst`. -/
structure ScriptRuns (ops : List HostOp) (k : Nat) (s : State) : Prop where
  idle : s.phase = .idle
  script : s.script = ops
  noReset : ∀ e ∈ s.env.take k, e.rst = false

theorem ScriptRuns.envNow_rst {ops : List HostOp} {k : Nat} {s : State} (h : ScriptRuns ops (k + 1) s) :
    (envNow s).rst = false := by
  cases he : s.env with
  | nil => simp [envNow, he]
  | cons e later =>
    rw [envNow_cons he]
    exact h.noReset e (by simp [he])

/-- The bus part of an edge with a write on the ports. -/
theorem hostPart_wr {s : State} {a : Addr} {d : Byte} {ops : List HostOp} (h : s.script = wr a d :: ops) :
    hostPart s = .next (busWrite a d (nextCycle s)) := by
  have hb : busPorts s = some ⟨true, a, d⟩ := by simp only [busPorts, h, wr]
  rw [hostPart_decodes (hostCode_of_busPorts hb) (decode_portsWord _), if_pos rfl, exec_decodeWrite]

section
variable {a : Addr} {d : Byte} {ops : List HostOp} {k : Nat} {s : State}

/-- The edge of a write. -/
theorem ScriptRuns.run_wr (h : ScriptRuns (wr a d :: ops) (k + 1) s) :
    run (k + 1) s = run k (busWrite a d (nextCycle s)) :=
  run_succ (by rw [step_of_hostPart h.envNow_rst (hostPart_wr h.script), engine_idle h.idle])

/-- A write to any address but CMD leaves the block idle, with the rest of the script to run. -/
theorem ScriptRuns.after_wr (h : ScriptRuns (wr a d :: ops) (k + 1) s) (ha : a ≠ 0x00#5) :
    ScriptRuns ops k (busWrite a d (nextCycle s)) := by
  rw [busWrite_eq ha]
  refine ⟨h.idle, by simp [scriptNext, h.script, wr], fun e he => h.noReset e ?_⟩
  cases henv : s.env with
  | nil => simp [henv] at he
  | cons e' later => exact List.mem_cons_of_mem e' (by simpa [henv] using he)

/-- The two edges of `WR16`. -/
theorem ScriptRuns.run_wr16 {hi lo : Addr} {v : Half} (h : ScriptRuns (wr16 hi lo v ++ ops) (k + 2) s)
    (hhi : hi ≠ 0x00#5) (hlo : lo ≠ 0x00#5) :
    run (k + 2) s = run k (busWrite lo (loByte v) (nextCycle (busWrite hi (hiByte v) (nextCycle s)))) ∧
      ScriptRuns ops k (busWrite lo (loByte v) (nextCycle (busWrite hi (hiByte v) (nextCycle s)))) :=
  have h' := h.after_wr hhi
  ⟨h.run_wr.trans h'.run_wr, h'.after_wr hlo⟩

end

/-! ### The writes of LOAD and WR16 LEN (R49, R51, R70) -/

theorem busWrite_ptrHi {s : State} (hp : s.phase = .idle) (d : Byte) :
    busWrite addrPtrHi d s = { s with ptr := setHi s.ptr d } :=
  whenIdle_idle hp fun s => { s with ptr := setHi s.ptr d }

theorem busWrite_ptrLo {s : State} (hp : s.phase = .idle) (d : Byte) :
    busWrite addrPtrLo d s = { s with ptr := setLo s.ptr d } :=
  whenIdle_idle hp fun s => { s with ptr := setLo s.ptr d }

theorem busWrite_lenHi {s : State} (hp : s.phase = .idle) (d : Byte) :
    busWrite addrLenHi d s = { s with len := setHi s.len d } :=
  whenIdle_idle hp fun s => { s with len := setHi s.len d }

theorem busWrite_lenLo {s : State} (hp : s.phase = .idle) (d : Byte) :
    busWrite addrLenLo d s = { s with len := setLo s.len d } :=
  whenIdle_idle hp fun s => { s with len := setLo s.len d }

theorem busWrite_data {s : State} (hp : s.phase = .idle) (d : Byte) : busWrite addrData d s = dataPortWrite d s :=
  whenIdle_idle hp (dataPortWrite d)

/-- The two writes of a WR16 leave its value, high byte first (R51). -/
theorem setLo_setHi (w v : Half) : setLo (setHi w (hiByte v)) (loByte v) = v := by simp [setLo, setHi]

/-- What `WR16 PTR, v` leaves, at an idle block. -/
theorem busWrite_wr16_ptr {s : State} (hp : s.phase = .idle) (v : Half) :
    busWrite addrPtrLo (loByte v) (nextCycle (busWrite addrPtrHi (hiByte v) (nextCycle s))) =
      { nextCycle (nextCycle s) with ptr := v } := by
  rw [busWrite_ptrHi (s := nextCycle s) hp, busWrite_ptrLo]
  · simp only [nextCycle_fields, setLo_setHi]
    rfl
  · exact hp

/-- What `WR16 LEN, v` leaves, at an idle block. -/
theorem busWrite_wr16_len {s : State} (hp : s.phase = .idle) (v : Half) :
    busWrite addrLenLo (loByte v) (nextCycle (busWrite addrLenHi (hiByte v) (nextCycle s))) =
      { nextCycle (nextCycle s) with len := v } := by
  rw [busWrite_lenHi (s := nextCycle s) hp, busWrite_lenLo]
  · simp only [nextCycle_fields, setLo_setHi]
    rfl
  · exact hp

/-- The cells of BUF below PTR: those a LOAD has filled so far. -/
def cellsBelowPtr (s : State) : List Byte := (List.range s.ptr.toNat).map (bufRead s)

@[simp] theorem cellsBelowPtr_length (s : State) : (cellsBelowPtr s).length = s.ptr.toNat := by simp [cellsBelowPtr]

/-- The payload SEND transmits is what stands below PTR, once LEN is PTR. -/
theorem payload_eq_cellsBelowPtr {s : State} (h : s.len = s.ptr) : payload s = cellsBelowPtr s := by
  rw [payload, cellsBelowPtr, h]

/-- A DATA write below PCAP puts its byte after the cells below PTR (R49); PCAP is below 2^16, so PTR does not wrap. -/
theorem cellsBelowPtr_dataPortWrite {s : State} (legal : s.params.Legal) (hlt : s.ptr.toNat < pcap s) (d : Byte) :
    cellsBelowPtr (dataPortWrite d s) = cellsBelowPtr s ++ [d] := by
  have bound : pcap s ≤ 65535 := by
    have := legal.2
    unfold pcap
    omega
  have succ : (dataPortWrite d s).ptr.toNat = s.ptr.toNat + 1 := by
    rw [dataPortWrite_eq]
    show (s.ptr + 1#16).toNat = _
    bv_omega
  have old : ∀ j ∈ List.range s.ptr.toNat, bufRead (dataPortWrite d s) j = bufRead s j := fun j hj => by
    rw [bufRead_dataPortWrite, if_neg fun h => absurd h.1 (List.mem_range.mp hj).ne]
  have new : bufRead (dataPortWrite d s) s.ptr.toNat = d := by rw [bufRead_dataPortWrite, if_pos ⟨rfl, hlt⟩]
  rw [cellsBelowPtr, succ, List.range_succ, List.map_append, List.map_congr_left old, List.map_singleton, new,
    cellsBelowPtr]

/-- The DATA writes of `LOAD p` put p after the cells below PTR, by induction on p. -/
theorem ScriptRuns.run_data {p : List Byte} {ops : List HostOp} {k : Nat} {s : State}
    (h : ScriptRuns (p.map (wr addrData) ++ ops) (p.length + k) s) (legal : s.params.Legal)
    (fits : (cellsBelowPtr s ++ p).length ≤ pcap s) :
    ∃ t, run (p.length + k) s = run k t ∧ ScriptRuns ops k t ∧ cellsBelowPtr t = cellsBelowPtr s ++ p := by
  induction p generalizing s with
  | nil => exact ⟨s, by simp, by simpa using h, by simp⟩
  | cons d p ih =>
    rw [List.length_cons, Nat.add_right_comm] at h ⊢
    have hlt : s.ptr.toNat < pcap s := by
      rw [List.length_append, cellsBelowPtr_length, List.length_cons] at fits
      omega
    have first : cellsBelowPtr (dataPortWrite d (nextCycle s)) = cellsBelowPtr s ++ [d] :=
      cellsBelowPtr_dataPortWrite (s := nextCycle s) legal hlt d
    have h' := h.after_wr (by decide)
    rw [h.run_wr]
    rw [busWrite_data (s := nextCycle s) h.idle] at h' ⊢
    obtain ⟨t, hrun, ht, rest⟩ := ih h' (by rwa [dataPortWrite_params]) (by
      rw [first, List.append_assoc, pcap, dataPortWrite_params]
      exact fits)
    exact ⟨t, hrun, ht, by rw [rest, first, List.append_assoc]; rfl⟩

/-- Settles O30: PTR starts at 0, each DATA write puts one byte below PTR, and LEN is then set to what PTR has
reached. -/
theorem loadedPayloadStandsInBuf : Obligations.LoadedPayloadStandsInBuf := by
  intro s p rest es legal hp hscript fits ⟨later, henv⟩ hes hrst
  have h : ScriptRuns (wr16 addrPtrHi addrPtrLo 0#16 ++ (p.map (wr addrData) ++
      (wr16 addrLenHi addrLenLo (BitVec.ofNat 16 p.length) ++ rest))) (p.length + 2 + 2) s :=
    ⟨hp, by simp only [hscript, loadFrame, load, List.append_assoc], fun e he => hrst e (by
      rwa [henv, List.take_left' hes] at he)⟩
  obtain ⟨runA, ha⟩ := h.run_wr16 (by decide) (by decide)
  rw [busWrite_wr16_ptr hp] at runA ha
  have start : cellsBelowPtr { nextCycle (nextCycle s) with ptr := 0#16 } = [] := rfl
  obtain ⟨b, runB, hb, cells⟩ := ha.run_data legal (by rw [start]; exact fits)
  rw [start, List.nil_append] at cells
  have ptr : b.ptr.toNat = p.length := by rw [← cells, cellsBelowPtr_length]
  have len : BitVec.ofNat 16 p.length = b.ptr := by rw [← ptr, BitVec.ofNat_toNat, BitVec.setWidth_eq]
  obtain ⟨runT, ht⟩ := hb.run_wr16 (k := 0) (by decide) (by decide)
  rw [busWrite_wr16_len hb.idle, len] at runT ht
  exact ⟨_, (runA.trans runB).trans runT, (payload_eq_cellsBelowPtr rfl).trans cells, ptr, ptr, ht.idle, ht.script⟩

end Sys2Proof.Machine
end

section
/-! SUPPORT. The encodings, both ways, family by family (R64, R69, R95, R102); and the rows of the reserved codes and
addresses (R65, R66), `WAITDONE` and the script of a command (R70). -/

namespace Sys2Proof.Machine

/-! ### Command codes (R64, R65) -/

/-- The number of a word whose high bits are fixed by its row. -/
theorem toNat_append_eq_add {n w : Nat} (hi : BitVec n) (k : BitVec w) :
    (hi ++ k).toNat = hi.toNat * 2 ^ w + k.toNat := by
  rw [BitVec.toNat_append, ← Nat.shiftLeft_add_eq_or_of_lt k.isLt, Nat.shiftLeft_eq]

theorem append_eq_ofNat {n w : Nat} (hi : BitVec n) (k : BitVec w) :
    hi ++ k = BitVec.ofNat (n + w) (hi.toNat * 2 ^ w + k.toNat) := by
  rw [← toNat_append_eq_add, BitVec.ofNat_toNat, BitVec.setWidth_eq]

/-- The row of a reserved code, by the place of its leading 1. -/
theorem decodeCmd_reserved {c : Byte} (hc : 4 ≤ c.toNat) :
    decodeCmd c =
      if c.toNat < 0x08 then .reserved0407 (c.extractLsb' 0 2)
      else if c.toNat < 0x10 then .reserved080F (c.extractLsb' 0 3)
      else if c.toNat < 0x20 then .reserved101F (c.extractLsb' 0 4)
      else if c.toNat < 0x40 then .reserved203F (c.extractLsb' 0 5)
      else if c.toNat < 0x80 then .reserved407F (c.extractLsb' 0 6)
      else .reserved80FF (c.extractLsb' 0 7) := by
  obtain ⟨h0, h1, h2, h3⟩ := cmdCode_ne hc
  rw [decodeCmd, if_neg h0, if_neg h1, if_neg h2, if_neg h3]

theorem decodeCmd_reserved0407 (k : BitVec 2) : decodeCmd (0b000001#6 ++ k) = .reserved0407 k := by
  have code : (0b000001#6 ++ k).toNat = 0x04 + k.toNat := toNat_append_eq_add _ k
  rw [decodeCmd_reserved (by omega), if_pos (by omega), BitVec.extractLsb'_append_eq_right]

theorem decodeCmd_reserved080F (k : BitVec 3) : decodeCmd (0b00001#5 ++ k) = .reserved080F k := by
  have code : (0b00001#5 ++ k).toNat = 0x08 + k.toNat := toNat_append_eq_add _ k
  rw [decodeCmd_reserved (by omega), if_neg (by omega), if_pos (by omega), BitVec.extractLsb'_append_eq_right]

theorem decodeCmd_reserved101F (k : BitVec 4) : decodeCmd (0b0001#4 ++ k) = .reserved101F k := by
  have code : (0b0001#4 ++ k).toNat = 0x10 + k.toNat := toNat_append_eq_add _ k
  rw [decodeCmd_reserved (by omega), if_neg (by omega), if_neg (by omega), if_pos (by omega),
    BitVec.extractLsb'_append_eq_right]

theorem decodeCmd_reserved203F (k : BitVec 5) : decodeCmd (0b001#3 ++ k) = .reserved203F k := by
  have code : (0b001#3 ++ k).toNat = 0x20 + k.toNat := toNat_append_eq_add _ k
  rw [decodeCmd_reserved (by omega), if_neg (by omega), if_neg (by omega), if_neg (by omega), if_pos (by omega),
    BitVec.extractLsb'_append_eq_right]

theorem decodeCmd_reserved407F (k : BitVec 6) : decodeCmd (0b01#2 ++ k) = .reserved407F k := by
  have code : (0b01#2 ++ k).toNat = 0x40 + k.toNat := toNat_append_eq_add _ k
  rw [decodeCmd_reserved (by omega), if_neg (by omega), if_neg (by omega), if_neg (by omega), if_neg (by omega),
    if_pos (by omega), BitVec.extractLsb'_append_eq_right]

theorem decodeCmd_reserved80FF (k : BitVec 7) : decodeCmd (0b1#1 ++ k) = .reserved80FF k := by
  have code : (0b1#1 ++ k).toNat = 0x80 + k.toNat := toNat_append_eq_add _ k
  rw [decodeCmd_reserved (by omega), if_neg (by omega), if_neg (by omega), if_neg (by omega), if_neg (by omega),
    if_neg (by omega), BitVec.extractLsb'_append_eq_right]

/-- The row of a command code has that code. -/
theorem encode_decodeCmd (c : Byte) : encode (decodeCmd c) = .cmd c := by
  rcases cmdCode_cases c with rfl | rfl | rfl | rfl | hc
  · rfl
  · rfl
  · rfl
  · rfl
  · rw [decodeCmd_reserved hc]
    split_ifs
    · exact congrArg Code.cmd (append_extractLsb'_of_div (n := 6) (k := 2) (by show c.toNat / 4 = 1; omega))
    · exact congrArg Code.cmd (append_extractLsb'_of_div (n := 5) (k := 3) (by show c.toNat / 8 = 1; omega))
    · exact congrArg Code.cmd (append_extractLsb'_of_div (n := 4) (k := 4) (by show c.toNat / 16 = 1; omega))
    · exact congrArg Code.cmd (append_extractLsb'_of_div (n := 3) (k := 5) (by show c.toNat / 32 = 1; omega))
    · exact congrArg Code.cmd (append_extractLsb'_of_div (n := 2) (k := 6) (by show c.toNat / 64 = 1; omega))
    · exact congrArg Code.cmd (append_extractLsb'_of_div (n := 1) (k := 7) (by show c.toNat / 128 = 1; omega))

/-! ### Bus words (R66, R69) -/

theorem decodeRead_rsv1417 : ∀ a : BitVec 2, decodeRead (0b101#3 ++ a) = .rdRsv1417 a := by decide

theorem decodeRead_rsv181F : ∀ a : BitVec 3, decodeRead (0b11#2 ++ a) = .rdRsv181F a := by decide

theorem decodeWrite_rsv1417 (a : BitVec 2) (d : Byte) : decodeWrite (0b101#3 ++ a) d = .wrRsv1417 a d := by
  obtain ⟨n⟩ := a
  fin_cases n <;> rfl

theorem decodeWrite_rsv181F (a : BitVec 3) (d : Byte) : decodeWrite (0b11#2 ++ a) d = .wrRsv181F a d := by
  obtain ⟨n⟩ := a
  fin_cases n <;> rfl

/-- The row of a write has its word, address by address. -/
theorem encode_decodeWrite (a : Addr) (d : Byte) : encode (decodeWrite a d) = .bus (busWord true a d) := by
  revert a
  refine forall_addr fun n => ?_
  fin_cases n <;> rfl

/-- A bus word that decodes is the word of its row: a read's has data bits 0 (R69). -/
theorem encode_of_decodeBus {w : BitVec 14} {i : Instr} (h : decodeBus w = .ok i) : encode i = .bus w := by
  have fields := busWord_fields w
  unfold decodeBus at h
  split_ifs at h with hwe hdata
  · cases h
    rw [encode_decodeWrite, ← hwe, fields]
  · cases h
    rw [encode_decodeRead, ← hdata, ← Bool.eq_false_of_not_eq_true hwe, fields]

/-! ### Discriminators (R95) -/

theorem decodeDisc_unrecognized {d : Byte} (h : unrecognizedOk d) : decodeDisc d = .unrecognized d := by
  rw [decodeDisc, if_neg h.1, if_neg h.2]

/-- The row of a discriminator has its value, and is UNRECOGNIZED only for the other values. -/
theorem encode_decodeDisc (d : Byte) : encode (decodeDisc d) = .disc d ∧ (decodeDisc d).wellFormed = true := by
  by_cases hack : d = 0x83#8
  · subst hack
    exact ⟨rfl, rfl⟩
  by_cases hnack : d = 0x84#8
  · subst hnack
    exact ⟨rfl, rfl⟩
  · rw [decodeDisc_unrecognized ⟨hack, hnack⟩]
    exact ⟨rfl, decide_eq_true ⟨hack, hnack⟩⟩

/-- A word in any other place is that of a well-formed instruction. -/
theorem wellFormed_of_encode {i : Instr} (h : ∀ d, encode i ≠ .disc d) : i.wellFormed = true := by
  cases i with
  | unrecognized d => exact absurd rfl (h d)
  | _ => rfl

/-! ### Payloads (R102 to R116) -/

/-- A payload that decodes is that of its row, length by length of the catalogue and identifier by identifier. -/
theorem encode_of_decodePayload {p : List Byte} {i : Instr} (h : decodePayload p = .ok i) : encode i = .payload p := by
  unfold decodePayload at h
  split at h
  · split_ifs at h with hid
    cases h
    obtain ⟨rfl, rfl⟩ := hid
    rfl
  · split_ifs at h with hid hid hid hid <;> cases h <;> subst hid <;> rfl
  · split_ifs at h with hid hrsv hid
    · cases h
      obtain ⟨rfl, rfl⟩ := hid
      subst hrsv
      rfl
    · cases h
      obtain ⟨rfl, rfl⟩ := hid
      rfl
  · split_ifs at h with hid hid
    · cases h
      obtain ⟨rfl, rfl⟩ := hid
      rfl
    · cases h
      simp [encode, bytesDopMask, hid]
  · split_ifs at h with hid
    cases h
    simp [encode, bytesPositionPinningParams, hid]
  · split_ifs at h with hid
    cases h
    simp [encode, bytesSystemRestart, hid]
  · cases h

/-! ### The round trip -/

/-- Settles O1, row by row: each operand comes back from the bits its row leaves free. -/
theorem decodeInvertsEncode : Obligations.DecodeInvertsEncode := by
  intro i hw
  cases i with
  | nop | send | await | issue => rfl
  | reserved0407 k => exact congrArg Except.ok (decodeCmd_reserved0407 k)
  | reserved080F k => exact congrArg Except.ok (decodeCmd_reserved080F k)
  | reserved101F k => exact congrArg Except.ok (decodeCmd_reserved101F k)
  | reserved203F k => exact congrArg Except.ok (decodeCmd_reserved203F k)
  | reserved407F k => exact congrArg Except.ok (decodeCmd_reserved407F k)
  | reserved80FF k => exact congrArg Except.ok (decodeCmd_reserved80FF k)
  | rdCmd | rdStatus | rdLenHi | rdLenLo | rdPtrHi | rdPtrLo | rdData | rdCksum | rdDisc | rdState | rdRxlenHi
  | rdRxlenLo | rdTmoHi | rdTmoLo | rdSettleHi | rdSettleLo | rdElapsedHi | rdElapsedLo | rdPcapHi | rdPcapLo =>
    exact decode_read _
  | wrCmd d | wrStatus d | wrLenHi d | wrLenLo d | wrPtrHi d | wrPtrLo d | wrData d | wrCksum d | wrDisc d | wrState d
  | wrRxlenHi d | wrRxlenLo d | wrTmoHi d | wrTmoLo d | wrSettleHi d | wrSettleLo d | wrElapsedHi d | wrElapsedLo d
  | wrPcapHi d | wrPcapLo d =>
    exact decode_write _ d
  | rdRsv1417 a => rw [encode, decode_read, decodeRead_rsv1417]
  | wrRsv1417 a d => rw [encode, decode_write, decodeWrite_rsv1417]
  | rdRsv181F a => rw [encode, decode_read, decodeRead_rsv181F]
  | wrRsv181F a d => rw [encode, decode_write, decodeWrite_rsv181F]
  | ack | nack => rfl
  | unrecognized d => exact congrArg Except.ok (decodeDisc_unrecognized (of_decide_eq_true hw))
  | setConstellation | configureSbas | configureQzss | factoryDefault | powerMode | positionRate | positionPinning
  | nmeaTalkerId =>
    rfl
  | systemRestart => simp [encode, decode, bytesSystemRestart, decodePayload]
  | positionPinningParams => simp [encode, decode, bytesPositionPinningParams, decodePayload]
  | dopMask => simp [encode, decode, bytesDopMask, decodePayload]

/-- Settles O2, place by place: outside the discriminators the word alone makes its row well formed. -/
theorem encodeInvertsDecode : Obligations.EncodeInvertsDecode := by
  intro c i h
  cases c with
  | cmd c =>
    cases h
    have word := encode_decodeCmd c
    exact ⟨word, wellFormed_of_encode fun d => by rw [word]; nofun⟩
  | bus w =>
    have word := encode_of_decodeBus h
    exact ⟨word, wellFormed_of_encode fun d => by rw [word]; nofun⟩
  | disc d =>
    cases h
    exact encode_decodeDisc d
  | payload p =>
    have word := encode_of_decodePayload h
    exact ⟨word, wellFormed_of_encode fun d => by rw [word]; nofun⟩

/-- Settles O3: the decoder evaluated at closed words. -/
theorem wordsOfTheSpecDecode : Obligations.WordsOfTheSpecDecode :=
  ⟨rfl, rfl, rfl, rfl, rfl, rfl, rfl, rfl, rfl, rfl, rfl, rfl, rfl⟩

/-! ### Reserved codes and addresses (R65, R66) -/

/-- A reserved code, written while busy (R45). -/
theorem reservedCommand_busy {s : State} (hp : s.phase ≠ .idle) (c : Byte) :
    reservedCommand c s = { s with cmdlost := true } := command_busy hp c _

/-- Settles O11: each row is its code's command, and the code is the row's base plus its free bits. -/
theorem reservedCodesEndInBadcmd : Obligations.ReservedCodesEndInBadcmd := by
  intro s k2 k3 k4 k5 k6 k7 bad
  have row {i : Instr} {c : Byte} {code : Nat} (hx : exec i s = .next (reservedCommand c s))
      (hc : c = BitVec.ofNat 8 code) : bad i code :=
    ⟨fun hp => by rw [hx, reservedCommand_idle hp, hc], fun hp => by rw [hx, reservedCommand_busy hp]⟩
  exact ⟨row rfl (append_eq_ofNat _ k2), row rfl (append_eq_ofNat _ k3), row rfl (append_eq_ofNat _ k4),
    row rfl (append_eq_ofNat _ k5), row rfl (append_eq_ofNat _ k6), row rfl (append_eq_ofNat _ k7)⟩

/-- Settles O17: these rows read a constant and write nothing. -/
theorem reservedAndReadOnlyAddresses : Obligations.ReservedAndReadOnlyAddresses := fun _ _ =>
  ⟨fun _ => ⟨rfl, rfl⟩, fun _ => ⟨rfl, rfl⟩, rfl, rfl, rfl, rfl, rfl, rfl, rfl, rfl, rfl⟩

/-! ### The bus host's script (R70) -/

/-- The bus part of an edge with `WAITDONE` at the front of the script is `RD STATUS`. -/
theorem hostPart_waitDone {s : State} {rest : List HostOp} (h : s.script = .waitDone :: rest) :
    hostPart s = .next (recordRead (statusByte s) (nextCycle s)) := by
  have ports : busPorts s = some { we := false, addr := addrStatus, wdata := 0x00#8 } := by rw [busPorts, h]
  rw [hostPart_decodes (hostCode_of_busPorts ports) (decode_portsWord _)]
  rfl

theorem scriptNext_waitDone {s : State} {rest : List HostOp} (h : s.script = .waitDone :: rest) :
    scriptNext s = if s.done then rest else .waitDone :: rest := by
  rw [scriptNext, h]

/-- Settles O5: the edge reads STATUS, and its script goes on by the DONE it read. -/
theorem waitDoneRepeatsUntilDone : Obligations.WaitDoneRepeatsUntilDone := by
  intro s rest h
  have next : (recordRead (statusByte s) (nextCycle s)).script = if s.done then rest else .waitDone :: rest :=
    scriptNext_waitDone h
  refine ⟨_, hostPart_waitDone h, rfl, fun hd => ?_, fun hd => ?_⟩
  · rw [next, hd, if_neg Bool.false_ne_true]
  · rw [next, hd, if_pos rfl]

/-- Settles O29: the halves of the length are its bytes, high byte first. -/
theorem issueScriptIsTheBootOrder : Obligations.IssueScriptIsTheBootOrder := by
  intro p w
  have len : wr16 addrLenHi addrLenLo (BitVec.ofNat 16 p.length) =
      [w 0x02#5 (BitVec.ofNat 8 (p.length / 256)), w 0x03#5 (BitVec.ofNat 8 p.length)] := by
    rw [wr16, hiByte_ofNat, loByte_ofNat]
    rfl
  rw [issueScript, issuep, loadFrame, load, len]
  simp only [List.append_assoc]
  rfl

end Sys2Proof.Machine
end

section
/-! SUPPORT. The packet codec: one edge of the transmit phase as a stall or the transfer of a byte, the frame a SEND puts on
the TX port edge by edge, and parse as the inverse of encode (R71, R77, R79 to R82). -/

namespace Sys2Proof.Machine

/-! ### A transmit edge (R76, R77, R80) -/

/-- A transmit edge is the bus part and then tx_step. -/
theorem step_of_tx {s t : State} (hr : (envNow s).rst = false) (hp : s.phase = .tx) (ht : hostPart s = .next t) :
    step s = txStep s t (envNow s).txReady := by
  rw [step_of_hostPart hr ht]
  simp only [engine, hp]

/-- Settles O31: without `tx_ready`, tx_step is the bus part. -/
theorem stalledTransmitHolds : Obligations.StalledTransmitHolds := by
  intro s t hr hp hready ht
  rw [step_of_tx hr hp ht, hready]
  rfl

/-- With `tx_ready`, the edge transfers the encoder's byte at TXIDX. -/
theorem step_transfers {s t : State} {b : Byte} (hr : (envNow s).rst = false) (hp : s.phase = .tx)
    (hready : (envNow s).txReady = true) (ht : hostPart s = .next t) (hb : frameByte s s.txidx.toNat = .ok b) :
    step s = .next (txTransfer s (recordTx b t) b) := by
  rw [step_of_tx hr hp ht, hready, txStep, if_pos rfl, hb]

/-- Settles O33: a transferred payload byte is the cell of BUF at TXIDX - 4, and the byte after the payload is TXCK. -/
theorem transferAdvancesTheFrame : Obligations.TransferAdvancesTheFrame := by
  intro s t h hr hp hready ht hlt
  obtain ⟨b, hb⟩ := frameByte_ok (h.txIndex hp) (h.txFits hp)
  have offered : txData s = b := txData_of_frameByte ((txValid_iff hr).mpr hp) hb
  have cell : 4 ≤ s.txidx.toNat ∧ s.txidx.toNat < 4 + s.len.toNat → b = bufRead s (s.txidx.toNat - 4) :=
    fun ⟨h4, hn⟩ => Except.ok.inj (hb.symm.trans (frameByte_payload h4 hn (h.txFits hp)))
  have checksum (hi : s.txidx.toNat = 4 + s.len.toNat) : b = s.txck := by
    rw [hi, frameByte_checksum] at hb
    exact (Except.ok.inj hb).symm
  have fold := if_ctx_congr Iff.rfl (fun hi => congrArg (s.txck ^^^ ·) (cell hi)) (fun _ => (rfl : t.txck = t.txck))
  have kept := if_ctx_congr Iff.rfl checksum (fun _ => (rfl : t.cksum = t.cksum))
  rw [step_transfers hr hp hready ht hb, txTransfer_other (by omega), offered, ← fold, ← kept]
  rfl

/-- Settles O34: the byte at LEN + 6 is END2, and LASTCMD says what its transfer starts. -/
theorem lastTransferEndsTheFrame : Obligations.LastTransferEndsTheFrame := by
  intro s t _ hr hp hready ht hi
  have last : s.txidx.toNat = 6 + s.len.toNat := by omega
  have hb : frameByte s s.txidx.toNat = .ok end2 := by rw [last, frameByte_end2]
  rw [step_transfers hr hp hready ht hb, txTransfer_last last]
  refine ⟨fun hsend => ?_, fun hissue => ?_⟩
  · rw [if_pos hsend]
    rfl
  · rw [if_neg (by rw [hissue]; decide)]
    rfl

/-! ### The edges of a SEND (R79, R82) -/

/-- A SEND is in its transmit phase with an idle bus: the coming edges bring the inputs es, `tx_ready` among them, which
are as many as the bytes of the frame still to go, and the TX port has transferred those before TXIDX. -/
structure SendRuns (before : List Byte) (es : List EnvInput) (s : State) : Prop where
  inv : Inv s
  phase : s.phase = .tx
  send : s.lastcmd = 0x01#8
  script : s.script = []
  inputs : envStarts es s
  ready : ∀ e ∈ es, e.rst = false ∧ e.txReady = true
  edges : s.txidx.toNat + es.length = s.len.toNat + 7
  sent : s.txLog = before ++ (frameOf (payload s)).take s.txidx.toNat

section
variable {before : List Byte} {e : EnvInput} {es : List EnvInput} {s : State}

theorem SendRuns.envNow_ready (h : SendRuns before (e :: es) s) : (envNow s).rst = false ∧ (envNow s).txReady = true := by
  obtain ⟨later, henv⟩ := h.inputs
  rw [envNow_cons henv]
  exact h.ready e List.mem_cons_self

/-- The edge of the last byte completes the SEND. -/
theorem SendRuns.step_last (h : SendRuns before [e] s) :
    ∃ t, step s = .next t ∧ t.txLog = before ++ frameOf (payload s) ∧
      t.phase = .idle ∧ t.done = true ∧ t.cause = .success ∧ t.cksum = xorfold (payload s) := by
  obtain ⟨hr, hready⟩ := h.envNow_ready
  have ended := (lastTransferEndsTheFrame s _ h.inv hr h.phase hready (hostPart_empty h.script)
    (Nat.succ.inj h.edges)).1 h.send
  obtain ⟨htx, -⟩ | ⟨-, hlog, hsum⟩ := frameGoesOutWhole s _ before h.inv hr h.phase ended h.sent
  · cases htx
  · exact ⟨_, ended, hlog, rfl, rfl, rfl, hsum⟩

/-- The edge of any other byte leaves the SEND running, one byte on. -/
theorem SendRuns.step_other (h : SendRuns before (e :: es) s) (hne : es ≠ []) :
    ∃ t, step s = .next t ∧ SendRuns before es t ∧ payload t = payload s := by
  obtain ⟨hr, hready⟩ := h.envNow_ready
  obtain ⟨later, henv⟩ := h.inputs
  have count := h.edges
  have more := List.length_pos_iff.mpr hne
  rw [List.length_cons] at count
  have moved := transferAdvancesTheFrame s _ h.inv hr h.phase hready (hostPart_empty h.script) (by omega)
  have succ : (s.txidx + 1#17).toNat = s.txidx.toNat + 1 := by bv_omega
  obtain ⟨-, hpay, hlog⟩ | ⟨htx, -⟩ := frameGoesOutWhole s _ before h.inv hr h.phase moved h.sent
  · refine ⟨_, moved, ?_, hpay⟩
    exact {
      inv := everyEdgeKeepsTheInvariant s _ h.inv moved
      phase := h.phase
      send := h.send
      script := by simp [scriptNext, h.script]
      inputs := ⟨later, by simp [henv]⟩
      ready := fun e' he => h.ready e' (List.mem_cons_of_mem e he)
      edges := by
        show (s.txidx + 1#17).toNat + es.length = s.len.toNat + 7
        omega
      sent := by rw [hpay]; exact hlog }
  · exact absurd h.phase htx

end

/-- A running SEND transfers the rest of its frame and completes, by induction on the edges left. -/
theorem SendRuns.run_completes {before : List Byte} {es : List EnvInput} {s : State} (h : SendRuns before es s) :
    ∃ t, run es.length s = .next t ∧ t.txLog = before ++ frameOf (payload s) ∧
      t.phase = .idle ∧ t.done = true ∧ t.cause = .success ∧ t.cksum = xorfold (payload s) := by
  induction es generalizing s with
  | nil =>
    have index := h.inv.txIndex h.phase
    have count : s.txidx.toNat = s.len.toNat + 7 := h.edges
    omega
  | cons e es ih =>
    rw [List.length_cons]
    by_cases hes : es = []
    · subst hes
      obtain ⟨t, ht, rest⟩ := h.step_last
      exact ⟨t, run_succ ht, rest⟩
    · obtain ⟨u, hu, hruns, hpay⟩ := h.step_other hes
      rw [run_succ hu, ← hpay]
      exact ih hruns

/-- Settles O37: the accepted SEND starts at TXIDX = 0 with nothing of its frame sent. -/
theorem sendTransfersItsFrame : Obligations.SendTransfersItsFrame := by
  intro s a es h hp hf ha hscript henv hlen hready
  rw [exec_send, command_idle hp] at ha
  obtain rfl := Host.Outcome.next.inj ha
  have inv : Inv (encodeStart (accept 0x01#8 s)) :=
    (h.blockOk.congr (t := accept 0x01#8 s) rfl rfl).inv_encodeStart rfl rfl (.inl rfl)
  rw [encodeStart_fits (s := accept 0x01#8 s) hf] at inv hscript henv hlen ⊢
  rw [← hlen]
  refine SendRuns.run_completes (before := s.txLog) ⟨inv, rfl, rfl, hscript, henv, hready, ?_, ?_⟩
  · exact (Nat.zero_add _).trans hlen
  · exact (List.append_nil _).symm

/-! ### parse (R81) -/

/-- parse of a frame written out as header, payload and trailer: a payload of the header's length, with its own
checksum, is accepted. -/
theorem parseFrame_of_parts {n : Half} {p : List Byte} (h : n.toNat = p.length) :
    parseFrame ([sync1, sync2, hiByte n, loByte n] ++ (p ++ [xorfold p, end1, end2])) = some p := by
  simp [parseFrame, h]

/-- Settles O59: up to 65535 bytes, the header's 16 bits hold the payload's length. -/
theorem parseInvertsFrame : Obligations.ParseInvertsFrame := by
  intro p hp
  have length : (BitVec.ofNat 16 p.length).toNat = p.length := by
    rw [BitVec.toNat_ofNat, Nat.mod_eq_of_lt (by omega)]
  rw [frameOf, List.append_assoc]
  exact parseFrame_of_parts length

end Sys2Proof.Machine
end

section
/-! SUPPORT. The acknowledgment receiver: one receive edge by the decoder's state (R85 to R95), a silent receive up to its
deadline (R87, R100), and a well-formed frame taken byte by byte (R96, R101). -/

namespace Sys2Proof.Machine

/-! ### The decoder, a rule for each state (R89 to R94) -/

section
variable {s m : State} {b : Byte}

theorem delta_waitSync1 (h : s.rxst = .waitSync1) :
    delta s m b = .next (if b = sync1 then { m with rxst := .waitSync2 } else m) := by
  simp only [delta, h]

theorem delta_waitSync2 (h : s.rxst = .waitSync2) :
    delta s m b = .next (if b = sync2 then { m with rxst := .lenHigh } else { m with rxst := .waitSync1 }) := by
  simp only [delta, h]

theorem delta_lenHigh (h : s.rxst = .lenHigh) :
    delta s m b = .next { m with rxlen := setHi s.rxlen b, rxst := .lenLow } := by
  simp only [delta, h]

theorem delta_lenLow (h : s.rxst = .lenLow) :
    delta s m b = .next { m with rxlen := setLo s.rxlen b, rxcnt := 0#17, discseen := false, rxst := .payload } := by
  simp only [delta, h]

/-- In state Payload, on a state the decoder has not written yet at this edge. -/
theorem delta_payload (h : s.rxst = .payload) (hdisc : m.disc = s.disc) (hseen : m.discseen = s.discseen)
    (hrxst : m.rxst = s.rxst) :
    delta s m b = .next { m with
      disc := if s.discseen = false then b else s.disc
      discseen := true
      rxcnt := payloadCount s
      rxst := if s.rxlen.toNat + 1 ≤ (payloadCount s).toNat then .waitTrailer else .payload } := by
  have seen : (if s.discseen = false then true else s.discseen) = true := by cases s.discseen <;> rfl
  simp only [delta, h, payloadByte_eq, hdisc, hseen, hrxst, seen]

theorem delta_trailer_end2 (h : s.rxst = .waitTrailer) : delta s m end2 = exec (decodeDisc s.disc) m := by
  simp only [delta, h, if_true]

theorem delta_trailer_other (h : s.rxst = .waitTrailer) (hb : b ≠ end2) : delta s m b = .next m := by
  simp only [delta, h, if_neg hb]

end

/-- The counter does not wrap while it is below its end (R93). -/
theorem toNat_payloadCount {s : State} (h : s.rxcnt.toNat ≤ s.rxlen.toNat) :
    (payloadCount s).toNat =
      if s.discseen = false ∧ s.params.plCountFirst = false then s.rxcnt.toNat else s.rxcnt.toNat + 1 := by
  unfold payloadCount
  split_ifs
  · rfl
  · bv_omega

/-- Writing RXST with the state it has changes nothing. -/
theorem with_rxst_eq_self {s : State} {r : RxState} (h : s.rxst = r) : { s with rxst := r } = s := by
  subst h
  rfl

/-! ### One receive edge (R85 to R95) -/

/-- The bus part of a receive edge leaves the decoder's state to the engine. -/
theorem hostPart_rxst {s t : State} (hp : s.phase = .rx) (ht : hostPart s = .next t) : t.rxst = s.rxst := by
  have fields := hostPart_busy_fields (by simp [hp]) ht
  simp only [fields]

/-- Settles O40: before the deadline and without a byte, rx_step is the tick. -/
theorem receiveEdgeWithoutByte : Obligations.ReceiveEdgeWithoutByte := by
  intro s t hr hp hlt ht hb
  refine ⟨(rxReady_iff hr).mpr ⟨hp, hlt⟩, ?_⟩
  rw [step_of_hostPart hr ht]
  simp only [engine, hp, rxStep, if_neg (Nat.not_le.mpr hlt), hb, countTick_eq]

/-- Settles O41: the decoder's two sync states. -/
theorem syncBytes : Obligations.SyncBytes := by
  intro s t b hr hp hlt ht hb t'
  have edge : step s = delta s t' b := step_takesByte hr hp hlt ht hb
  have rxst : t.rxst = s.rxst := hostPart_rxst hp ht
  rw [edge]
  refine ⟨fun h hsync => ?_, fun h hsync => ?_, fun h hsync => ?_, fun h hsync => ?_⟩
  · exact (delta_waitSync1 h).trans (congrArg _ (if_pos hsync))
  · rw [with_rxst_eq_self (s := t') (rxst.trans h)]
    exact (delta_waitSync1 h).trans (congrArg _ (if_neg hsync))
  · exact (delta_waitSync2 h).trans (congrArg _ (if_pos hsync))
  · exact (delta_waitSync2 h).trans (congrArg _ (if_neg hsync))

/-- Settles O42: the decoder's two length states. -/
theorem lengthBytes : Obligations.LengthBytes := by
  intro s t b hr hp hlt ht hb t'
  have edge : step s = delta s t' b := step_takesByte hr hp hlt ht hb
  exact ⟨fun h => edge.trans (delta_lenHigh h), fun h => edge.trans (delta_lenLow h)⟩

/-- Settles O43: the invariant keeps the counter from wrapping. -/
theorem payloadBytes : Obligations.PayloadBytes := by
  intro s t b inv hr hp hlt ht hb h cnt
  have fields := hostPart_busy_fields (by simp [hp]) ht
  have count : (payloadCount s).toNat = cnt := toNat_payloadCount (inv.rxCount hp h)
  rw [step_takesByte hr hp hlt ht hb,
    delta_payload h (by simp only [fields]) (by simp only [fields]) (by simp only [fields]), ← count,
    BitVec.ofNat_toNat, BitVec.setWidth_eq]

/-- Settles O45: the decoder's END2 arm runs the captured discriminator. -/
theorem frameEndRunsTheDiscriminator : Obligations.FrameEndRunsTheDiscriminator := by
  intro s t hr hp hlt ht hb h
  rw [step_takesByte hr hp hlt ht hb]
  exact delta_trailer_end2 h

/-- Settles O44: END2 runs the discriminator, and any other byte leaves the decoder as it was. -/
theorem trailerBytes : Obligations.TrailerBytes := by
  intro s t b hr hp hlt ht hb h t'
  refine ⟨fun hend => ?_, fun hother => ?_⟩
  · subst hend
    rw [frameEndRunsTheDiscriminator s t hr hp hlt ht hb h]
    exact exec_decodeDisc s.disc t'
  · have rxst : t.rxst = s.rxst := hostPart_rxst hp ht
    rw [with_rxst_eq_self (s := t') (rxst.trans h)]
    exact (step_takesByte hr hp hlt ht hb).trans (delta_trailer_other h hother)

/-! ### Discriminators (R95, R129) -/

theorem causeOf_eq_success_iff (d : Byte) : causeOf d = .success ↔ d = 0x83#8 := by
  unfold causeOf
  split_ifs <;> simp [*]

/-- Settles O25: the rows are `frameEnd` with their causes, and only 0x83 selects SUCCESS. -/
theorem discriminatorSelectsCause : Obligations.DiscriminatorSelectsCause := by
  refine fun s => ⟨rfl, rfl, fun _ => rfl, fun d t ht => ?_⟩
  rw [exec_decodeDisc] at ht
  obtain rfl := Host.Outcome.next.inj ht
  simp [result, causeOf_eq_success_iff]

/-! ### A silent receive (R87, R100) -/

/-- A receive with an idle bus that is n ticks away from its deadline; the coming n + 1 edges only tick. -/
structure Silent (n : Nat) (s : State) : Prop where
  phase : s.phase = .rx
  script : s.script = []
  ticksLeft : s.elapsed.toNat + n = s.tmo.toNat
  inputs : envStarts (List.replicate (n + 1) ticks) s

theorem Silent.envNow_eq {n : Nat} {s : State} (h : Silent n s) : envNow s = ticks := by
  obtain ⟨later, henv⟩ := h.inputs
  exact envNow_cons henv

/-- An edge before the deadline counts its tick. -/
theorem Silent.step_ticks {n : Nat} {s : State} (h : Silent (n + 1) s) :
    step s = .next { nextCycle s with elapsed := s.elapsed + 1#16 } ∧
      Silent n { nextCycle s with elapsed := s.elapsed + 1#16 } := by
  obtain ⟨later, henv⟩ := h.inputs
  have left := h.ticksLeft
  have edge := (receiveEdgeWithoutByte s _ (by rw [h.envNow_eq]; rfl) h.phase (by omega) (hostPart_empty h.script)
    (by rw [h.envNow_eq]; rfl)).2
  rw [h.envNow_eq] at edge
  refine ⟨edge, h.phase, by simp [scriptNext, h.script], ?_, later, by simp [henv, List.replicate_succ]⟩
  show (s.elapsed + 1#16).toNat + n = s.tmo.toNat
  bv_omega

/-- The edges up to the deadline, by induction on the ticks left. -/
theorem Silent.run_to_deadline {n : Nat} {s : State} (h : Silent n s) :
    ∃ t, run n s = .next t ∧ Silent 0 t ∧ t.tmo = s.tmo ∧ t.rxLog = s.rxLog ∧ t.rxst = s.rxst := by
  induction n generalizing s with
  | zero => exact ⟨s, rfl, h, rfl, rfl, rfl⟩
  | succ n ih =>
    obtain ⟨edge, after⟩ := h.step_ticks
    rw [run_succ edge]
    exact ih after

/-- Settles O47: n ticks reach the deadline, and the next edge completes with TIMEOUT. -/
theorem silentReceiveTimesOut : Obligations.SilentReceiveTimesOut := by
  intro s n hp hscript left henv
  obtain ⟨t, ht, silent, htmo, hlog, hrxst⟩ := Silent.run_to_deadline ⟨hp, hscript, left, henv⟩
  have reached : t.elapsed = t.tmo := BitVec.eq_of_toNat_eq silent.ticksLeft
  have ended := (deadlineEndsTheReceive t _ (by rw [silent.envNow_eq]; rfl) silent.phase silent.ticksLeft.ge
    (hostPart_empty silent.script)).2
  exact ⟨⟨t, ht, silent.phase, reached.trans htmo⟩,
    _, run_last ht ended, rfl, rfl, rfl, reached.trans htmo, hlog, hrxst⟩

/-! ### A frame offered back to back (R89 to R96, R101) -/

/-- The receive that stood in s₀ has taken the bytes `taken`, one an edge, and stands in s before its deadline, with an
idle bus and the decoder in state r; the coming edges offer the bytes bs. -/
structure Receives (s₀ : State) (taken bs : List Byte) (r : RxState) (s : State) : Prop where
  ran : run taken.length s₀ = .next s
  record : s.rxLog = s₀.rxLog ++ taken
  phase : s.phase = .rx
  decoder : s.rxst = r
  deadline : s.elapsed.toNat < s.tmo.toNat
  script : s.script = []
  inputs : envStarts (bs.map offers) s

section
variable {s₀ s : State} {taken bs : List Byte} {b : Byte} {r : RxState}

/-- The edge gives the byte to the decoder. -/
theorem Receives.step_eq (h : Receives s₀ taken (b :: bs) r s) :
    step s = delta s (recordRx b (nextCycle s)) b := by
  obtain ⟨later, henv⟩ := h.inputs
  have now : envNow s = offers b := envNow_cons henv
  have edge := step_takesByte (by rw [now]; rfl) h.phase h.deadline (hostPart_empty h.script) (by rw [now]; rfl)
  rw [now] at edge
  exact edge

/-- When the decoder writes no field but its own, the receive has taken the byte and goes on with the others. -/
theorem Receives.next (h : Receives s₀ taken (b :: bs) r s) {r' : RxState} {len : Half} {cnt : Wide} {d : Byte}
    {seen : Bool}
    (hd : delta s (recordRx b (nextCycle s)) b = .next
      { recordRx b (nextCycle s) with rxst := r', rxlen := len, rxcnt := cnt, disc := d, discseen := seen }) :
    ∃ t, Receives s₀ (taken ++ [b]) bs r' t ∧ t.rxlen = len ∧ t.rxcnt = cnt ∧ t.disc = d ∧ t.discseen = seen := by
  obtain ⟨later, henv⟩ := h.inputs
  refine ⟨{ recordRx b (nextCycle s) with rxst := r', rxlen := len, rxcnt := cnt, disc := d, discseen := seen },
    ?_, rfl, rfl, rfl, rfl⟩
  exact {
    ran := by rw [List.length_append]; exact run_last h.ran (h.step_eq.trans hd)
    record := by rw [← List.append_assoc, ← h.record]; rfl
    phase := h.phase
    decoder := rfl
    deadline := h.deadline
    script := by simp [scriptNext, h.script]
    inputs := ⟨later, by simp [henv]⟩ }

/-- The header: both sync bytes and the two length bytes. -/
theorem Receives.header {hi lo : Byte} (h : Receives s₀ taken (sync1 :: sync2 :: hi :: lo :: bs) .waitSync1 s) :
    ∃ t, Receives s₀ (taken ++ [sync1, sync2, hi, lo]) bs .payload t ∧
      t.rxlen = ofBytes hi lo ∧ t.rxcnt = 0#17 ∧ t.discseen = false := by
  obtain ⟨s₁, h₁, -⟩ := h.next ((delta_waitSync1 h.decoder).trans (congrArg _ (if_pos rfl)))
  obtain ⟨s₂, h₂, -⟩ := h₁.next ((delta_waitSync2 h₁.decoder).trans (congrArg _ (if_pos rfl)))
  obtain ⟨s₃, h₃, high, -⟩ := h₂.next (delta_lenHigh h₂.decoder)
  obtain ⟨s₄, h₄, low, count, -, seen⟩ := h₃.next (delta_lenLow h₃.decoder)
  refine ⟨s₄, by simpa using h₄, ?_, count, seen⟩
  rw [low, high]
  simp [setLo, setHi]

end

/-- The receive has captured the discriminator d of a frame whose header says n. -/
structure Captured (s₀ : State) (d : Byte) (n : Nat) (taken bs : List Byte) (r : RxState) (s : State) : Prop
    extends Receives s₀ taken bs r s where
  seen : s.discseen = true
  disc : s.disc = d
  length : s.rxlen.toNat = n

section
variable {s₀ s : State} {taken bs : List Byte} {b d : Byte} {n : Nat} {r : RxState}

/-- The first payload byte is the discriminator. It leaves the decoder in state Payload if the frame's payload is not
empty, and is counted only under PL_COUNT_FIRST. -/
theorem Receives.captures (h : Receives s₀ taken (d :: bs) .payload s) (hseen : s.discseen = false)
    (hcnt : s.rxcnt = 0#17) (hn : 1 ≤ s.rxlen.toNat) :
    ∃ u, Captured s₀ d s.rxlen.toNat (taken ++ [d]) bs .payload u ∧
      u.rxcnt.toNat = if s.params.plCountFirst = false then 0 else 1 := by
  have count : (payloadCount s).toNat = if s.params.plCountFirst = false then 0 else 1 := by
    rw [toNat_payloadCount (by simp [hcnt])]
    simp [hseen, hcnt]
  have more : ¬ s.rxlen.toNat + 1 ≤ (payloadCount s).toNat := by
    rw [count]
    split_ifs <;> omega
  have captured := delta_payload (m := recordRx d (nextCycle s)) (b := d) h.decoder rfl rfl rfl
  rw [if_pos hseen, if_neg more] at captured
  obtain ⟨t, ht, len, cnt, disc, seen⟩ := h.next captured
  exact ⟨t, ⟨ht, seen, disc, congrArg BitVec.toNat len⟩, by rw [cnt, count]⟩

/-- A later byte in state Payload is counted, and the one that reaches RXLEN + 1 leads to the trailer. -/
theorem Captured.counts (h : Captured s₀ d n taken (b :: bs) .payload s) (hcnt : s.rxcnt.toNat ≤ n) :
    ∃ u, Captured s₀ d n (taken ++ [b]) bs (if n ≤ s.rxcnt.toNat then .waitTrailer else .payload) u ∧
      u.rxcnt.toNat = s.rxcnt.toNat + 1 := by
  have count : (payloadCount s).toNat = s.rxcnt.toNat + 1 := by
    rw [toNat_payloadCount (by rw [h.length]; exact hcnt)]
    simp [h.seen]
  have counted := delta_payload (m := recordRx b (nextCycle s)) (b := b) h.decoder rfl rfl rfl
  rw [if_neg (by simp [h.seen]), count, h.length] at counted
  simp only [Nat.add_le_add_iff_right] at counted
  obtain ⟨t, ht, len, cnt, disc, seen⟩ := h.next counted
  exact ⟨t, ⟨ht, seen, disc.trans h.disc, (congrArg BitVec.toNat len).trans h.length⟩, by rw [cnt, count]⟩

/-- As many bytes as the count still lacks lead to the trailer, by induction on them. -/
theorem Captured.counts_to_trailer {cs : List Byte} (h : Captured s₀ d n taken (cs ++ bs) .payload s) (hne : cs ≠ [])
    (hcnt : s.rxcnt.toNat + cs.length = n + 1) :
    ∃ u, Captured s₀ d n (taken ++ cs) bs .waitTrailer u := by
  induction cs generalizing s taken with
  | nil => exact absurd rfl hne
  | cons c cs ih =>
    rw [List.length_cons] at hcnt
    obtain ⟨u, hu, count⟩ := h.counts (by omega)
    by_cases hcs : cs = []
    · subst hcs
      rw [if_pos (by simpa using hcnt.ge)] at hu
      exact ⟨u, hu⟩
    · have left := List.length_pos_iff.mpr hcs
      rw [if_neg (by omega)] at hu
      rw [List.append_cons]
      exact ih hu hcs (by omega)

/-- In the trailer a byte that is not END2 changes nothing. -/
theorem Captured.discards (h : Captured s₀ d n taken (b :: bs) .waitTrailer s) (hb : b ≠ end2) :
    ∃ u, Captured s₀ d n (taken ++ [b]) bs .waitTrailer u := by
  have kept := with_rxst_eq_self (s := recordRx b (nextCycle s)) h.decoder
  obtain ⟨t, ht, len, -, disc, seen⟩ := h.next ((delta_trailer_other h.decoder hb).trans (congrArg _ kept.symm))
  exact ⟨t, ⟨ht, seen.trans h.seen, disc.trans h.disc, (congrArg BitVec.toNat len).trans h.length⟩⟩

/-- END2 completes the receive with the discriminator's cause. -/
theorem Captured.step_end2 (h : Captured s₀ d n taken (end2 :: bs) .waitTrailer s) :
    step s = .next (frameEnd (causeOf d) (recordRx end2 (nextCycle s))) := by
  rw [h.step_eq, delta_trailer_end2 h.decoder, exec_decodeDisc, h.disc]

/-- Both readings of PL_COUNT_FIRST reach the trailer before END2: counted from the first payload byte on, RXLEN + 1 bytes
end with the checksum, and counted from the second on, with END1. -/
theorem Receives.reaches_trailer {p : List Byte} {ck : Byte}
    (h : Receives s₀ taken (d :: (p ++ [ck, end1, end2])) .payload s) (hseen : s.discseen = false) (hcnt : s.rxcnt = 0#17)
    (hn : s.rxlen.toNat = p.length + 1) :
    ∃ u, Captured s₀ d (p.length + 1) (taken ++ d :: p ++ [ck, end1]) [end2] .waitTrailer u := by
  obtain ⟨u, hu, count⟩ := h.captures hseen hcnt (by omega)
  rw [hn] at hu
  cases hfirst : s.params.plCountFirst
  case true =>
    rw [if_neg (by simp [hfirst])] at count
    have shape : p ++ [ck, end1, end2] = (p ++ [ck]) ++ [end1, end2] := by simp
    rw [shape] at hu
    obtain ⟨v, hv⟩ := hu.counts_to_trailer (by simp) (by simp; omega)
    obtain ⟨w, hw⟩ := hv.discards (by decide)
    exact ⟨w, by simpa using hw⟩
  case false =>
    rw [if_pos hfirst] at count
    have shape : p ++ [ck, end1, end2] = (p ++ [ck, end1]) ++ [end2] := by simp
    rw [shape] at hu
    obtain ⟨v, hv⟩ := hu.counts_to_trailer (by simp) (by simp; omega)
    exact ⟨v, by simpa using hv⟩

end

/-- Settles O46: the header sets RXLEN to the payload's length, the count reaches the trailer before END2, and END2 runs
the captured discriminator. -/
theorem wellFormedFrameDecodes : Obligations.WellFormedFrameDecodes := by
  intro s d ck p frame hp hr hseen hlt hscript hlen hframe henv
  have start : Receives s [] frame .waitSync1 s :=
    ⟨rfl, (List.append_nil _).symm, hp, hr, hlt, hscript, henv⟩
  rw [hframe] at start
  obtain ⟨u, hu, len, cnt, seen⟩ := start.header
  have length : u.rxlen.toNat = p.length + 1 := by
    rw [len, ← hiByte_ofNat, ← loByte_ofNat, ofBytes_halves, BitVec.toNat_ofNat, Nat.mod_eq_of_lt (by omega)]
  obtain ⟨v, hv⟩ := hu.reaches_trailer seen cnt length
  have ran : run (p.length + 7) s = .next v := by simpa using hv.ran
  refine ⟨⟨v, ran, hv.phase⟩, _, run_last ran hv.step_end2, rfl, rfl, rfl, hv.disc, hv.length, rfl, ?_⟩
  show v.rxLog ++ [end2] = s.rxLog ++ frame
  rw [hv.record, hframe]
  simp [sync1, sync2, end1, end2]

end Sys2Proof.Machine
end

section
/-! SUPPORT. The commands of the bus host: the field ranges it checks, and what it does for a command in range and for
one out of range (R102, R103, R106 to R116). -/

namespace Sys2Proof.Machine

/-! ### The ranges of the fields (R103) -/

theorem inRange_iff {w : Nat} {v : BitVec w} {lo hi : Nat} : inRange v lo hi = true ↔ lo ≤ v.toNat ∧ v.toNat ≤ hi :=
  decide_eq_true_iff

theorem inRange_eq_false_iff {w : Nat} {v : BitVec w} {lo hi : Nat} :
    inRange v lo hi = false ↔ v.toNat < lo ∨ hi < v.toNat := by
  rw [← Bool.not_eq_true, inRange_iff, not_and_or, not_le, not_le]

/-! ### A command issued or rejected (R102, R103) -/

/-- A command whose check holds puts its payload's script at the front. -/
theorem exec_of_valid {i : Instr} {s : State} {valid : Bool} {p : List Byte}
    (hx : exec i s = .next (hostCommand valid p s)) (hv : valid = true) :
    exec i s = .next { s with script := issueScript p ++ s.script, validationError := false } := by
  rw [hx, hv, hostCommand_valid]

/-- A command whose check fails sets the flag alone. -/
theorem exec_of_invalid {i : Instr} {s : State} {valid : Bool} {p : List Byte}
    (hx : exec i s = .next (hostCommand valid p s)) (hv : valid = false) :
    exec i s = .next { s with validationError := true } := by
  rw [hx, hv, hostCommand_invalid]

/-- Settles O26: these rows check nothing, and their bytes are the catalogue's. -/
theorem commandsWithoutRangeAreIssued : Obligations.CommandsWithoutRangeAreIssued := by
  intro s m a mo d h mi se y la lo al ps pc us uc ud issues hi low
  have row {i : Instr} {p : List Byte} (hx : exec i s = .next (hostCommand true p s)) : issues i p :=
    exec_of_valid hx rfl
  exact ⟨row rfl, row rfl, row rfl, row rfl, row rfl⟩

/-- Settles O27: the check of each row is the conjunction of its ranges. -/
theorem commandsInRangeAreIssued : Obligations.CommandsInRangeAreIssued := by
  intro s e r u c n m a p h g issues hi low
  have upTo {top : Nat} (hm : m.toNat ≤ top) : inRange m 0 top = true := inRange_iff.mpr ⟨Nat.zero_le _, hm⟩
  refine ⟨fun he hr hu hc hn => exec_of_valid rfl ?sbas, fun he hn => exec_of_valid rfl ?qzss,
    fun hm => exec_of_valid rfl (upTo hm), fun hm => exec_of_valid rfl (upTo hm),
    fun hm hp hp' hh hh' hg hg' => exec_of_valid rfl ?dop, fun hm => exec_of_valid rfl (upTo hm)⟩
  case sbas => simp [inRange_iff, he, hr, hu, hc, hn]
  case qzss => simp [inRange_iff, he, hn]
  case dop => simp [inRange_iff, hm, hp, hp', hh, hh', hg, hg']

/-- Settles O28: one range missed fails the conjunction of the row's check. -/
theorem outOfRangeIsValidationError : Obligations.OutOfRangeIsValidationError := by
  intro s e r u c n m a p h g rejects
  have past {top : Nat} (hm : top < m.toNat) : inRange m 0 top = false := inRange_eq_false_iff.mpr (.inr hm)
  refine ⟨fun hout => exec_of_invalid rfl ?sbas, fun hout => exec_of_invalid rfl ?qzss,
    fun hm => exec_of_invalid rfl (past hm), fun hm => exec_of_invalid rfl (past hm),
    fun hout => exec_of_invalid rfl ?dop, fun hm => exec_of_invalid rfl (past hm)⟩
  case sbas | qzss | dop =>
    simpa only [Bool.and_eq_false_iff, inRange_eq_false_iff, Nat.not_lt_zero, false_or, or_assoc] using hout

end Sys2Proof.Machine
end

section
/-! SUPPORT. The edges of the exception rules: a busy edge's completion and its lost command (R133, R134, R148), and
that no edge from a state of a run stops the block (R131, R135). -/

namespace Sys2Proof.Machine

/-! ### The completing edge (R133, R134, R148) -/

/-- Settles O57: the engine writes DONE after the bus part has cleared it. -/
theorem completionWinsOverClear : Obligations.CompletionWinsOverClear := by
  intro s t hp hr h ht
  obtain ⟨hrst, -⟩ | ⟨-, m, hm, he⟩ := step_cases h
  · simp [hr] at hrst
  have hphase : m.phase = s.phase := by simp only [hostPart_busy_fields hp hm]
  exact engine_done hp hphase he ht

/-- The bus part of a busy edge with a nonzero code written to CMD is the loss of the command (R134, R148). -/
theorem hostPart_command_busy {s : State} {c : Byte} {rest : List HostOp} (hp : s.phase ≠ .idle)
    (hs : s.script = wr addrCmd c :: rest) (hc : c ≠ 0x00#8) :
    hostPart s = .next (commandLost (nextCycle s)) := by
  rw [hostPart_wr hs, busWrite_busy (s := nextCycle s) hp (by decide), if_pos ⟨rfl, hc⟩]
  rfl

/-- Settles O58: the bus part loses the command, and the engine writes neither field. -/
theorem commandAtCompletingEdgeIsLost : Obligations.CommandAtCompletingEdgeIsLost := by
  intro s t c rest hp hr hs hc h
  rw [step_of_hostPart hr (hostPart_command_busy hp hs hc)] at h
  rw [engine_frame h]
  exact ⟨rfl, rfl⟩

/-! ### No edge stops the block (R131, R135) -/

/-- A transaction on the ports has a next state at every address. -/
theorem hostPart_of_busPorts {s : State} {p : BusPorts} (h : busPorts s = some p) : ∃ m, hostPart s = .next m := by
  rw [hostPart_decodes (hostCode_of_busPorts h) (decode_portsWord p)]
  exact exec_answers _ _

/-- The bus part of any edge has a next state, or the bus host's next item is a command of no row, which is refused
(log 9). -/
theorem hostPart_answers_or_refuses (s : State) :
    (∃ m, hostPart s = .next m) ∨
    ∃ p rest e, s.script = .command p :: rest ∧ decodePayload p = .error e ∧
      hostPart s = .refused (.undecodable e) := by
  match hs : s.script with
  | [] => exact .inl ⟨_, hostPart_empty hs⟩
  | .idle :: _ =>
    have silent : hostCode s = none := by simp [hostCode, busPorts, hs]
    exact .inl ⟨_, hostPart_none silent⟩
  | .waitDone :: _ => exact .inl ⟨_, hostPart_waitDone hs⟩
  | .bus p :: _ =>
    have ports : busPorts s = some p := by rw [busPorts, hs]
    exact .inl (hostPart_of_busPorts ports)
  | .command p :: rest =>
    have code : hostCode s = some (.payload p) := by rw [hostCode, hs]
    cases hd : decodePayload p with
    | ok i =>
      rw [hostPart_decodes code hd]
      exact .inl (exec_answers i _)
    | error e => exact .inr ⟨p, rest, e, rfl, hd, by simp only [hostPart, code, decode, hd]⟩

/-- The engine part has a next state: in TX the index is in the frame and the frame in BUF, and a receive is not in
Terminal. -/
theorem Inv.engine_answers {s : State} (h : Inv s) (m : State) (e : EnvInput) : ∃ t, engine s m e = .next t := by
  unfold engine
  cases hp : s.phase with
  | idle => exact ⟨_, rfl⟩
  | tx =>
    obtain ⟨b, hb⟩ := frameByte_ok (h.txIndex hp) (h.txFits hp)
    simp only [txStep, hb]
    split <;> exact ⟨_, rfl⟩
  | settle => exact ⟨_, rfl⟩
  | rx =>
    simp only [rxStep]
    split
    · exact ⟨_, rfl⟩
    split
    · exact ⟨_, rfl⟩
    · exact delta_answers (h.rxLive hp)

/-- An edge from a state of a run has a next state, or the bus host's next item is a command of no row, which is refused
(log 9). -/
theorem Inv.step_answers_or_refuses {s : State} (h : Inv s) :
    (∃ t, step s = .next t) ∨
    ∃ p rest e, s.script = .command p :: rest ∧ decodePayload p = .error e ∧ step s = .refused (.undecodable e) := by
  cases hr : (envNow s).rst with
  | true => exact .inl ⟨_, step_reset hr⟩
  | false =>
    rcases hostPart_answers_or_refuses s with ⟨m, hm⟩ | ⟨p, rest, e, hs, hd, href⟩
    · rw [step_of_hostPart hr hm]
      exact .inl (h.engine_answers m _)
    · exact .inr ⟨p, rest, e, hs, hd, by simp [step, hr, href]⟩

/-- Settles O53: the one edge without a next state is a refusal, and its command is of no row. -/
theorem noFatalState : Obligations.NoFatalState := by
  intro s h
  rcases h.step_answers_or_refuses with ⟨t, ht⟩ | ⟨p, rest, e, hs, hd, href⟩
  · exact ⟨by simp [ht], fun _ => ⟨t, ht⟩⟩
  · refine ⟨by simp [href], fun known => ?_⟩
    obtain ⟨i, hi⟩ := known p rest hs
    simp [hi] at hd

end Sys2Proof.Machine
end
